-- ==== Sys2Proof/Word.lean ====
section
/-! DEFINITION. The word types of the block: the byte of the bus and of the result buffer, the event dispatch word
and the ADC reading (spec/00_scope.md R14, R17; spec/30_encoding.md R73). Every value is unsigned and bit 0 is the
least significant bit (R17). -/

namespace Sys2Proof

/-- A byte is 8 bits (R17). -/
abbrev Byte := BitVec 8

/-- The event dispatch word, "DW", is 16 bits in one format (R73, R82). -/
abbrev DispatchWord := BitVec 16

/-- One analog reading `v`, a 16-bit word that travels beside the dispatch word (R14, R73). -/
abbrev Reading := BitVec 16

end Sys2Proof
end

