-- ==== Sys2Proof/Config.lean ====
section
/-! DEFINITION. What an implementation fixes: the three model parameters of spec/00_scope.md section 4 (R11 to R15)
with the spec's defaults, and the fixed number of result bytes (R10). A machine's parameters stand in
`Machine.State.cfg` and no step writes them, so a claim about every state is a claim for every value of them
(notes/assumptions/5). -/

namespace Sys2Proof

/-- `N`, the number of result bytes, is fixed at 2 (R10). -/
def numResultBytes : Nat := 2

/-- `DEV_ADDR7`, the 7-bit device address of the source's example (R11). -/
def devAddr7 : BitVec 7 := 0x41#7

/-- The read-direction address byte of a 7-bit address: `(a << 1) | 1` (R12). -/
def readHeader (a : BitVec 7) : Byte := a.setWidth 8 <<< 1 ||| 1#8

/-- The model parameters (R13, R14, R15). -/
structure Config where
  /-- `ADDR_MATCH_BYTE`: the exact byte the received address byte is compared against (R13). -/
  addrMatchByte : Byte
  /-- `ADC_BITS`: the number of significant bits of one reading (R14). -/
  adcBits : Nat
  /-- `ADC_DONE_GUARDED`: whether a completion outside SendingAddressAck leaves the protocol alone (R15). -/
  adcDoneGuarded : Bool
  deriving DecidableEq, Repr

/-- The defaults of R13, R14 and R15. -/
def Config.standard : Config where
  addrMatchByte := readHeader devAddr7
  adcBits := 16
  adcDoneGuarded := false

/-- `ADC_BITS` lies in 1..16 (R14). -/
abbrev Config.Legal (p : Config) : Prop := 1 ≤ p.adcBits ∧ p.adcBits ≤ 16

end Sys2Proof
end

