-- ==== Sys2Proof/Syntax.lean ====
section
/-! DEFINITION. The syntax: the values of `protocolState` (spec/10_state.md R26), the three event kinds
(spec/30_encoding.md R69) and the twelve operations of the opcode map (R77), one constructor of `Instr` per row of
spec/opcode_table.json. An operand stands in a constructor exactly where the row leaves a field of the canonical word
open; the condition bit `c` is a function of the other fields and of `ADDR_MATCH_BYTE` (R75) and is no operand. -/

namespace Sys2Proof

/-- `protocolState`, "a closed set of five values" and the three reserved encodings (R26). No rule writes a reserved
value (R51); they are kept because the spec says how a word that carries one decodes and runs (R81, R100). -/
inductive ProtocolState where
  /-- WaitingForStart, 0. -/
  | wfs
  /-- ReceivingAddress, 1. -/
  | ra
  /-- SendingAddressAck, 2. -/
  | saa
  /-- SendingBytes, 3. -/
  | sb
  /-- ReceivingAckBytes, 4. -/
  | rab
  /-- Reserved, 5. -/
  | reserved5
  /-- Reserved, 6. -/
  | reserved6
  /-- Reserved, 7. -/
  | reserved7
  deriving DecidableEq, Repr

/-- "There are exactly three event kinds, one per interrupt source" (R69). -/
inductive EventKind where
  /-- A START edge, from the Bus Framing Detector. -/
  | start
  /-- A shift-register overflow, from the Shift-Register Transceiver. -/
  | ovf
  /-- A conversion's completion, from the Analog Sampler. -/
  | adc
  deriving DecidableEq, Repr

/-- The operations of the block: the rows of the opcode map, in its order (R77). -/
inductive Instr where
  /-- START.STOPPED (R91): `st` is a don't-care of the row. -/
  | startStopped (st : ProtocolState)
  /-- START.GO (R90): `st` is a don't-care of the row. -/
  | startGo (st : ProtocolState)
  /-- OVF.STOP (R93): `st` and `data` are don't-cares of the row. -/
  | ovfStop (st : ProtocolState) (data : Byte)
  /-- OVF.RA.MATCH (R94): the received byte, equal to `ADDR_MATCH_BYTE` when well formed. -/
  | ovfRaMatch (rx : Byte)
  /-- OVF.RA.NOMATCH (R95): the received byte, any other one when well formed. -/
  | ovfRaNomatch (rx : Byte)
  /-- OVF.SAA (R96). -/
  | ovfSaa
  /-- OVF.SB (R97). -/
  | ovfSb
  /-- OVF.RAB.ACK (R98). -/
  | ovfRabAck
  /-- OVF.RAB.NACK (R99). -/
  | ovfRabNack
  /-- OVF.DEFAULT (R100): WaitingForStart or a reserved state when well formed. -/
  | ovfDefault (st : ProtocolState)
  /-- ADC.DONE.SAA (R105): the reading beside the word. -/
  | adcDoneSaa (v : Reading)
  /-- ADC.DONE.STRAY (R106): any state but SendingAddressAck when well formed, and the reading. -/
  | adcDoneStray (st : ProtocolState) (v : Reading)
  deriving DecidableEq, Repr

/-- The rows' names, for the opcode map and for what depends on the row alone. -/
inductive Opcode where
  | startStopped | startGo | ovfStop | ovfRaMatch | ovfRaNomatch | ovfSaa | ovfSb | ovfRabAck | ovfRabNack | ovfDefault
  | adcDoneSaa | adcDoneStray
  deriving DecidableEq, Repr

/-- The row an instruction stands in. -/
def Instr.opcode : Instr → Opcode
  | .startStopped _ => .startStopped
  | .startGo _ => .startGo
  | .ovfStop _ _ => .ovfStop
  | .ovfRaMatch _ => .ovfRaMatch
  | .ovfRaNomatch _ => .ovfRaNomatch
  | .ovfSaa => .ovfSaa
  | .ovfSb => .ovfSb
  | .ovfRabAck => .ovfRabAck
  | .ovfRabNack => .ovfRabNack
  | .ovfDefault _ => .ovfDefault
  | .adcDoneSaa _ => .adcDoneSaa
  | .adcDoneStray _ _ => .adcDoneStray

/-- The interrupt source an instruction's event comes from (R69, R77). -/
def Instr.kind : Instr → EventKind
  | .startStopped _ => .start
  | .startGo _ => .start
  | .ovfStop _ _ => .ovf
  | .ovfRaMatch _ => .ovf
  | .ovfRaNomatch _ => .ovf
  | .ovfSaa => .ovf
  | .ovfSb => .ovf
  | .ovfRabAck => .ovf
  | .ovfRabNack => .ovf
  | .ovfDefault _ => .ovf
  | .adcDoneSaa _ => .adc
  | .adcDoneStray _ _ => .adc

/-- The `st` field of an instruction's word: "`protocolState` when the event is taken" (R73). -/
def Instr.state : Instr → ProtocolState
  | .startStopped st => st
  | .startGo st => st
  | .ovfStop st _ => st
  | .ovfRaMatch _ => .ra
  | .ovfRaNomatch _ => .ra
  | .ovfSaa => .saa
  | .ovfSb => .sb
  | .ovfRabAck => .rab
  | .ovfRabNack => .rab
  | .ovfDefault st => st
  | .adcDoneSaa _ => .saa
  | .adcDoneStray st _ => st

/-- The operand that travels beside the word: the reading of an ADC event, 0 for every other row (R73). -/
def Instr.reading : Instr → Reading
  | .adcDoneSaa v => v
  | .adcDoneStray _ v => v
  | .startStopped _ => 0
  | .startGo _ => 0
  | .ovfStop _ _ => 0
  | .ovfRaMatch _ => 0
  | .ovfRaNomatch _ => 0
  | .ovfSaa => 0
  | .ovfSb => 0
  | .ovfRabAck => 0
  | .ovfRabNack => 0
  | .ovfDefault _ => 0

end Sys2Proof
end

