-- ==== Sys2Proof/WellFormed.lean ====
section
/-! DEFINITION. Which instructions stand for a canonical dispatch word (spec/30_encoding.md R75, R77, R80, R81), for a
machine with the parameters `p`. -/

namespace Sys2Proof

/-- The `data` field a canonical OVF word may carry in state `st`: any byte in ReceivingAddress, 0 or 1 in
ReceivingAckBytes, 0 in every other state (R80). -/
def dataFits (st : ProtocolState) (data : Byte) : Bool :=
  match st with
  | .ra => true
  | .rab => data == 0 || data == 1
  | .wfs => data == 0
  | .saa => data == 0
  | .sb => data == 0
  | .reserved5 => data == 0
  | .reserved6 => data == 0
  | .reserved7 => data == 0

/-- Whether an OVF with no STOP in `st` is left to the defensive default: the rows before it take 1 to 4 (R77, R81). -/
def hasNoOvfRow (st : ProtocolState) : Bool :=
  match st with
  | .wfs => true
  | .reserved5 => true
  | .reserved6 => true
  | .reserved7 => true
  | .ra => false
  | .saa => false
  | .sb => false
  | .rab => false

/-- The operands of each row that a canonical word can carry (R75, R77, R80). -/
def Instr.wellFormed (p : Config) : Instr → Bool
  | .startStopped _ => true
  | .startGo _ => true
  | .ovfStop st data => dataFits st data
  | .ovfRaMatch rx => rx == p.addrMatchByte
  | .ovfRaNomatch rx => rx != p.addrMatchByte
  | .ovfSaa => true
  | .ovfSb => true
  | .ovfRabAck => true
  | .ovfRabNack => true
  | .ovfDefault st => hasNoOvfRow st
  | .adcDoneSaa _ => true
  | .adcDoneStray st _ => st != .saa

end Sys2Proof
end

