-- ==== Sys2Proof/Decode.lean ====
section
/-! DEFINITION. The event dispatch word: its fields and its assembly (spec/30_encoding.md R73, R75, R76), canonical
form (R80), the opcode map with first-match selection (R77, R78), the decoder, total on every word and refusing by
name, and after it the encoder written from the same table. -/

namespace Sys2Proof

/-! ## Fields -/

/-- The encoding of `protocolState` (R26). -/
def ProtocolState.code : ProtocolState → BitVec 3
  | .wfs => 0#3
  | .ra => 1#3
  | .saa => 2#3
  | .sb => 3#3
  | .rab => 4#3
  | .reserved5 => 5#3
  | .reserved6 => 6#3
  | .reserved7 => 7#3

/-- The value of `protocolState` a 3-bit field encodes (R26). -/
def ProtocolState.ofCode (b : BitVec 3) : ProtocolState :=
  match b.toNat with
  | 0 => .wfs
  | 1 => .ra
  | 2 => .saa
  | 3 => .sb
  | 4 => .rab
  | 5 => .reserved5
  | 6 => .reserved6
  | _ => .reserved7

/-- The encoding of the event kind (R69). -/
def EventKind.code : EventKind → BitVec 2
  | .start => 0#2
  | .ovf => 1#2
  | .adc => 2#2

/-- The event kind a 2-bit field encodes; `ev` = 3 is reserved (R69). -/
def EventKind.ofCode (b : BitVec 2) : Option EventKind :=
  match b.toNat with
  | 0 => some .start
  | 1 => some .ovf
  | 2 => some .adc
  | _ => none

/-- Bits [2:0], `st` (R73). -/
def dwState (w : DispatchWord) : ProtocolState := ProtocolState.ofCode (w.extractLsb' 0 3)

/-- Bits [4:3], `ev` (R73); none for the reserved kind. -/
def dwKind (w : DispatchWord) : Option EventKind := EventKind.ofCode (w.extractLsb' 3 2)

/-- Bit [5], `s`, the STOP qualifier (R73). -/
def dwStop (w : DispatchWord) : Bool := w.getLsbD 5

/-- Bit [6], `c`, the condition bit (R73). -/
def dwCond (w : DispatchWord) : Bool := w.getLsbD 6

/-- Bit [7], `r`, reserved (R73). -/
def dwReserved (w : DispatchWord) : Bool := w.getLsbD 7

/-- Bits [15:8], `data` (R73). -/
def dwData (w : DispatchWord) : Byte := w.extractLsb' 8 8

/-- DW assembly: `data<<8 | c<<6 | s<<5 | ev<<3 | st` (R76). -/
def packDW (data : Byte) (c s : Bool) (ev : EventKind) (st : ProtocolState) : DispatchWord :=
  data.setWidth 16 <<< 8 ||| (BitVec.ofBool c).setWidth 16 <<< 6 ||| (BitVec.ofBool s).setWidth 16 <<< 5 |||
    ev.code.setWidth 16 <<< 3 ||| st.code.setWidth 16

/-- The condition bit `c`: an address match in ReceivingAddress or a NACK in ReceivingAckBytes, both for OVF only
(R75). -/
def condBit (p : Config) (ev : EventKind) (st : ProtocolState) (data : Byte) : Bool :=
  match ev, st with
  | .ovf, .ra => data == p.addrMatchByte
  | .ovf, .rab => data.getLsbD 0
  | _, _ => false

/-! ## Canonical form -/

/-- A word is canonical when every line of R80 holds. -/
abbrev Canonical (p : Config) (w : DispatchWord) : Prop :=
  dwReserved w = false ∧ dwKind w ≠ none ∧
    (dwKind w = some .start → dwCond w = false ∧ dwData w = 0) ∧
    (dwKind w = some .adc → dwStop w = false ∧ dwCond w = false ∧ dwData w = 0) ∧
    (dwKind w = some .ovf → dwCond w = condBit p .ovf (dwState w) (dwData w) ∧
      (dwState w ≠ .ra → dwState w ≠ .rab → dwData w = 0) ∧
      (dwState w = .rab → dwData w = 0 ∨ dwData w = 1))

/-- Why the decoder refuses a word: the line of R80 it breaks, or no row of R77 (which R78 shows never happens). -/
inductive DecodeError where
  /-- `ev` = 3 (R69, R80). -/
  | reservedKind
  /-- `r` = 1 (R80). -/
  | reservedBit
  /-- START with `c` = 1 (R80). -/
  | startCond
  /-- START with `data` ≠ 0 (R80). -/
  | startData
  /-- ADC with `s` = 1 (R80). -/
  | adcStop
  /-- ADC with `c` = 1 (R80). -/
  | adcCond
  /-- ADC with `data` ≠ 0 (R80). -/
  | adcData
  /-- OVF whose `c` is not what R75 gives (R80). -/
  | ovfCond
  /-- OVF whose `data` its state does not admit (R80). -/
  | ovfData
  /-- A canonical word that selects no row (R21): unreachable. -/
  | noRow
  deriving DecidableEq, Repr

/-- The first line of R80 that a word breaks, by name; none when the word is canonical. -/
def canonicalError (p : Config) (w : DispatchWord) : Option DecodeError :=
  if dwReserved w then some .reservedBit
  else match dwKind w with
    | none => some .reservedKind
    | some .start =>
      if dwCond w then some .startCond
      else if dwData w ≠ 0 then some .startData
      else none
    | some .adc =>
      if dwStop w then some .adcStop
      else if dwCond w then some .adcCond
      else if dwData w ≠ 0 then some .adcData
      else none
    | some .ovf =>
      if dataFits (dwState w) (dwData w) = false then some .ovfData
      else if dwCond w ≠ condBit p .ovf (dwState w) (dwData w) then some .ovfCond
      else none

/-! ## The opcode map -/

/-- One row of the opcode map: its name, mask and match (R77). -/
structure Row where
  name : Opcode
  mask : DispatchWord
  pattern : DispatchWord
  deriving DecidableEq, Repr

/-- The opcode map in its order (R77). -/
def opcodeRows : List Row :=
  [⟨.startStopped, 0x0038#16, 0x0020#16⟩,
   ⟨.startGo, 0x0038#16, 0x0000#16⟩,
   ⟨.ovfStop, 0x0038#16, 0x0028#16⟩,
   ⟨.ovfRaMatch, 0x007F#16, 0x0049#16⟩,
   ⟨.ovfRaNomatch, 0x007F#16, 0x0009#16⟩,
   ⟨.ovfSaa, 0x003F#16, 0x000A#16⟩,
   ⟨.ovfSb, 0x003F#16, 0x000B#16⟩,
   ⟨.ovfRabAck, 0x007F#16, 0x000C#16⟩,
   ⟨.ovfRabNack, 0x007F#16, 0x004C#16⟩,
   ⟨.ovfDefault, 0x0038#16, 0x0008#16⟩,
   ⟨.adcDoneSaa, 0x003F#16, 0x0012#16⟩,
   ⟨.adcDoneStray, 0x0038#16, 0x0010#16⟩]

/-- Whether a word matches a row: `DW & mask = match` (R77). -/
def Row.fits (r : Row) (w : DispatchWord) : Bool := (w &&& r.mask) == r.pattern

/-- "A DW selects the first row ... for which `DW & mask = match`" (R77). -/
def selectRow (w : DispatchWord) : Option Opcode := (opcodeRows.find? fun r => r.fits w).map Row.name

/-- The instruction of a row, its operands taken from the word's fields and from the reading beside it (R73, R77). -/
def instrOf (op : Opcode) (w : DispatchWord) (v : Reading) : Instr :=
  match op with
  | .startStopped => .startStopped (dwState w)
  | .startGo => .startGo (dwState w)
  | .ovfStop => .ovfStop (dwState w) (dwData w)
  | .ovfRaMatch => .ovfRaMatch (dwData w)
  | .ovfRaNomatch => .ovfRaNomatch (dwData w)
  | .ovfSaa => .ovfSaa
  | .ovfSb => .ovfSb
  | .ovfRabAck => .ovfRabAck
  | .ovfRabNack => .ovfRabNack
  | .ovfDefault => .ovfDefault (dwState w)
  | .adcDoneSaa => .adcDoneSaa v
  | .adcDoneStray => .adcDoneStray (dwState w) v

/-- The decoder: a word that is not canonical is refused by name, any other one takes its first row (R77, R79, R80).
The reading `v` is read by the ADC rows only. -/
def decode (p : Config) (w : DispatchWord) (v : Reading) : Except DecodeError Instr :=
  match canonicalError p w with
  | some e => .error e
  | none =>
    match selectRow w with
    | some op => .ok (instrOf op w v)
    | none => .error .noRow

/-- The decoder on a word of the opcode table, numbered as the table numbers it: bits 15..0 are the dispatch word and
bits 31..16, where an instruction has them, the reading beside it; the parameters are the spec's defaults
(notes/assumptions/11). -/
def decodeTableWord (nbits w : Nat) : Option Instr :=
  let x := w % 2 ^ nbits
  (decode Config.standard (BitVec.ofNat 16 x) (BitVec.ofNat 16 (x / 2 ^ 16))).toOption

/-! ## The encoder -/

/-- The word of an instruction on a machine with the parameters `p` (R73 to R77). The reading of an ADC event travels
beside the word (`Instr.reading`). -/
def encode (p : Config) : Instr → DispatchWord
  | .startStopped st => packDW 0 false true .start st
  | .startGo st => packDW 0 false false .start st
  | .ovfStop st data => packDW data (condBit p .ovf st data) true .ovf st
  | .ovfRaMatch rx => packDW rx true false .ovf .ra
  | .ovfRaNomatch rx => packDW rx false false .ovf .ra
  | .ovfSaa => packDW 0 false false .ovf .saa
  | .ovfSb => packDW 0 false false .ovf .sb
  | .ovfRabAck => packDW 0 false false .ovf .rab
  | .ovfRabNack => packDW 1 true false .ovf .rab
  | .ovfDefault st => packDW 0 false false .ovf st
  | .adcDoneSaa _ => packDW 0 false false .adc .saa
  | .adcDoneStray st _ => packDW 0 false false .adc st

end Sys2Proof
end

