-- ==== Sys2Proof/Machine/State.lean ====
section
/-! DEFINITION. The state of the block: the tuple of spec/10_state.md R25 field by field, the machine's parameters, and
the two fields of the model's own (the step's output label and what the environment offers). With it the reasons a
step can stop and the state right after power-on reset (R49, spec/70_reset_and_hazards.md R137). -/

namespace Sys2Proof.Machine

/-- `xcvrMode`: the unit the transceiver is armed for (R31). Exactly the legal values, as R51 allows; the encodings are
`XcvrMode.code` (notes/assumptions/8). -/
inductive XcvrMode where
  /-- IDLE, 0: no unit expected, start detection. -/
  | idle
  /-- RX_BYTE, 1: receive 8 bits. -/
  | rxByte
  /-- TX_ACK, 2: transmit one bit, low. -/
  | txAck
  /-- TX_BYTE, 3: transmit the 8 bits of `tx`. -/
  | txByte
  /-- RX_ACK, 4: receive one bit. -/
  | rxAck
  deriving DecidableEq, Repr

/-- `sleepMode` (R35, spec/43_power_idle.md R111). -/
inductive SleepMode where
  /-- DEEP, 0: "the processor is fully halted". -/
  | deep
  /-- LIGHT, 1: "internal peripheral clocking continues enough for the sampler to complete". -/
  | light
  deriving DecidableEq, Repr

/-- `resultBytes`: "each byte is either a value 0x00..0xFF or *unwritten*" (R29). The `none` of a byte is the spec's own
value *unwritten* (notes/assumptions/7). -/
structure ResultBytes where
  /-- `rb[0]`, the high byte. -/
  hi : Option Byte
  /-- `rb[1]`, the low byte. -/
  lo : Option Byte
  deriving DecidableEq, Repr

/-- The recovery reason a step's output may carry: "a label the model may attach to a step's output for tests"
(spec/60_exceptions.md R127). -/
inductive Recovery where
  /-- 0: every step that recovers from nothing. -/
  | none
  /-- 1: ADDR_MISMATCH. -/
  | addrMismatch
  /-- 2: NACK. -/
  | nack
  /-- 3: STOP. -/
  | stop
  /-- 4: DEFENSIVE. -/
  | defensive
  deriving DecidableEq, Repr

/-- The output label of a step: the adcStart pulse (spec/00_scope.md R22, R40) and the recovery reason (R127). -/
structure Label where
  /-- The step started a conversion. -/
  adcStart : Bool
  /-- The step's recovery reason. -/
  recovery : Recovery
  deriving DecidableEq, Repr

/-- The label of a step that emits nothing. -/
def Label.quiet : Label := ⟨false, .none⟩

/-- One event the environment offers, with its payload (spec/30_encoding.md R69 to R72). The payload of an overflow is
what the transceiver sampled: all of it in RX_BYTE, bit 0 in RX_ACK, nothing in the other modes
(notes/assumptions/9). -/
inductive Event where
  /-- START with `sf`: whether a STOP followed the edge (R70). -/
  | start (sf : Bool)
  /-- OVF with `s`: whether the framing detector reports a STOP (R71), and the sampled bits `rx` (R72). -/
  | ovf (s : Bool) (rx : Byte)
  /-- ADC completion with its reading `v` (spec/42_adc_events.md R104). -/
  | adc (v : Reading)
  deriving DecidableEq, Repr

/-- One item of what the environment offers: an event, which the step turns into its dispatch word (R79), or a dispatch
word "built by hand in a test" with its reading (R80, spec/95_test_vectors.md section 10). -/
inductive Input where
  | event (e : Event)
  | word (w : DispatchWord) (v : Reading)
  deriving DecidableEq, Repr

/-- The state. `st` to `slp` are the complete state of the block (R25); `cfg` holds the parameters, which no step
writes; `label` and `inbox` are the model's own. -/
structure State where
  /-- The machine's parameters (spec/00_scope.md R13 to R15). -/
  cfg : Config
  /-- `protocolState` (R26). -/
  st : ProtocolState
  /-- `byteCursor`, "encoded in 2 bits (values 0, 1 and 2 legal, 3 unreachable)" (R28). -/
  cur : Fin 4
  /-- `resultBytes` (R29). -/
  rb : ResultBytes
  /-- `txByte` (R30); `none` is the spec's own value *unwritten*. -/
  tx : Option Byte
  /-- `xcvrMode` (R31). -/
  mode : XcvrMode
  /-- `clkHold` (R32). -/
  clk : Bool
  /-- `adcPower` (R33). -/
  pwr : Bool
  /-- `adcBusy` (R34). -/
  busy : Bool
  /-- `sleepMode` (R35). -/
  slp : SleepMode
  /-- The output label of the latest step (R22, R127). -/
  label : Label
  /-- What the environment offers, in order (spec/60_exceptions.md R124, R130). -/
  inbox : List Input
  deriving DecidableEq, Repr

/-- The faults of the model (spec/00_scope.md R21). The hardware raises none of them. -/
inductive Fault where
  /-- `fault(UnwrittenResult)`: `ByteAt` read a result byte not written since reset (R19). Raised by the meaning of
  OVF.RAB.ACK; unreachable by R47. Safe: the model stops. -/
  | unwrittenResult
  /-- The data-line output read `tx` before the first `ArmTxByte` (spec/93_implementation_defined.md I12,
  spec/92_eei_decisions.md D24). Raised by the
  output function `sdaOut` only, never by a step; unreachable by R47. Safe: no value is made up. -/
  | unwrittenTx
  deriving DecidableEq, Repr

/-- Why there is no such step (R21). -/
inductive Refusal where
  /-- An instruction without a meaning yet, by its mnemonic. Raised by `exec` only; no arm raises it. Safe. -/
  | notModelled (mnemonic : String)
  /-- `refuse(NonCanonicalDW)`: the word breaks the named line of R80. Raised by `step`. Safe: "the hardware has no such
  word". -/
  | nonCanonicalDW (why : DecodeError)
  /-- The offered event is not enabled, so it "has no step" (R21, spec/60_exceptions.md R121). Raised by the entry
  `takeEvent` of every meaning. Safe: the hardware raises no such event then. -/
  | eventNotEnabled (kind : EventKind)
  /-- Nothing is offered: "a state in which no event is enabled has no step" and the block sleeps on (R21,
  spec/43_power_idle.md R113, spec/60_exceptions.md R121). Raised by `step` on an empty `inbox`. Safe: nothing happens
  until the environment offers an event (notes/assumptions/3). -/
  | noEventOffered
  /-- The reading is not below `2^ADC_BITS`: "not a legal draw", no step (spec/42_adc_events.md R104). Raised by the ADC
  meanings. Safe: "the values of `v` above `2^ADC_BITS - 1` do not occur" (R105). -/
  | illegalDraw
  /-- A word built by hand whose `st` field is not the machine's `st`: no event of this state has it (R73, R79). Raised
  by `step`. Safe (notes/assumptions/10). -/
  | wordNotOfState
  deriving DecidableEq, Repr

/-- What a step or a meaning answers. -/
abbrev Answer := Host.Outcome State Fault Refusal

/-- The machine right after power-on reset (R49, R137), with the spec's default parameters, an empty label and nothing
offered yet (notes/assumptions/2, 5, 6). -/
def State.reset : State where
  cfg := Config.standard
  st := .wfs
  cur := 0
  rb := ⟨none, none⟩
  tx := none
  mode := .idle
  clk := false
  pwr := false
  busy := false
  slp := .deep
  label := Label.quiet
  inbox := []

end Sys2Proof.Machine
end

