-- ==== Sys2Proof/Machine/Flags.lean ====
section
/-! DEFINITION. The one-bit status values of the block (spec/10_state.md R38) and the primitives of spec/00_scope.md R20
that write them: the clock hold, the sampler's power and busy bits, the sleep selection; and the conditions the spec
names over them (R27, spec/00_scope.md R24). -/

namespace Sys2Proof.Machine

/-- The transceiver holds the clock at the end of every unit (spec/41_overflow_events.md R92). -/
def holdClock (s : State) : State := { s with clk := true }

/-- `Stretch()`: "no write; clk stays true" (R20). -/
def stretch (s : State) : State := s

/-- `AdcPower(on)` (R20, R33). -/
def adcPower (on : Bool) (s : State) : State := { s with pwr := on }

/-- `SetSleep(m)` (R20, R35). -/
def setSleep (m : SleepMode) (s : State) : State := { s with slp := m }

/-- `AdcStart()`: "if not busy then busy <- true; emit adcStart" (R20, R22, spec/42_adc_events.md R107). -/
def adcStart (s : State) : State :=
  if s.busy then s else { s with busy := true, label := { s.label with adcStart := true } }

/-- `busy <- false`: the conversion has completed (R34, spec/42_adc_events.md R105, R106). -/
def conversionDone (s : State) : State := { s with busy := false }

/-- Empty the output label: the step begins to write its own (R22). -/
def clearLabel (s : State) : State := { s with label := Label.quiet }

/-- Attach a recovery reason to the step's output (spec/60_exceptions.md R127). -/
def recover (r : Recovery) (s : State) : State := { s with label := { s.label with recovery := r } }

/-- "SamplingInProgress", which is no value of `protocolState`: `st = SAA` and a conversion in flight (R27). -/
def samplingInProgress (s : State) : Bool := s.st == .saa && s.busy

/-- The stall: the clock held from the overflow that ends the address ACK bit to the completion
(spec/00_scope.md R24, spec/41_overflow_events.md R101). -/
def stalled (s : State) : Bool := s.clk && samplingInProgress s

end Sys2Proof.Machine
end

