-- ==== Sys2Proof/Machine/Power.lean ====
section
/-! DEFINITION. The power manager: wake sets (spec/43_power_idle.md R112), when an event is enabled
(spec/60_exceptions.md R121), and the foreground idle action (R113). -/

namespace Sys2Proof.Machine

/-- The event kinds that wake the core from a sleep mode: `wake(DEEP) = {START, OVF}`,
`wake(LIGHT) = {START, OVF, ADC}` (R112). -/
def wake : SleepMode → List EventKind
  | .deep => [.start, .ovf]
  | .light => [.start, .ovf, .adc]

/-- The enabling condition of each kind besides the wake set (R121): START always, OVF while the clock is not held,
ADC while a conversion runs. -/
def sourceReady (k : EventKind) (s : State) : Bool :=
  match k with
  | .start => true
  | .ovf => !s.clk
  | .adc => s.busy

/-- "An event `e` is enabled in state `S` exactly when its kind is in `wake(S.slp)`" and its source's condition holds
(R121). -/
def enabled (k : EventKind) (s : State) : Bool := (wake s.slp).contains k && sourceReady k s

/-- `sleep(m)`: the core waits in `m` for an event of `wake m` and writes nothing (R113). -/
def sleep (_m : SleepMode) (s : State) : State := s

/-- The idle action `loop { sleep(slp) }`, executed after boot and after every handler: it "writes no state of the block
and reads only `slp`". It is "the quiescent point between events, not ... a step" (R113). -/
def idleAction (s : State) : State := sleep s.slp s

end Sys2Proof.Machine
end

