-- ==== Sys2Proof/Machine/Operands.lean ====
section
/-! DEFINITION. Operand assembly: from an event meeting a state to its dispatch word (spec/30_encoding.md R72, R74,
R76, R79), the split of a reading into its two bytes (spec/20_memory.md R56), and the encodings of the control fields
(spec/10_state.md R31, R35, spec/60_exceptions.md R127). -/

namespace Sys2Proof.Machine

/-- The encoding of `xcvrMode` (R31). -/
def XcvrMode.code : XcvrMode → BitVec 3
  | .idle => 0#3
  | .rxByte => 1#3
  | .txAck => 2#3
  | .txByte => 3#3
  | .rxAck => 4#3

/-- The encoding of `sleepMode` (R35). -/
def SleepMode.code : SleepMode → BitVec 1
  | .deep => 0#1
  | .light => 1#1

/-- The number of a recovery reason (R127). -/
def Recovery.code : Recovery → Nat
  | .none => 0
  | .addrMismatch => 1
  | .nack => 2
  | .stop => 3
  | .defensive => 4

/-- The unit a protocol state arms: `armOf` (spec/10_state.md R43); none for a reserved state. -/
def armOf : ProtocolState → Option XcvrMode
  | .wfs => some .idle
  | .ra => some .rxByte
  | .saa => some .txAck
  | .sb => some .txByte
  | .rab => some .rxAck
  | .reserved5 => none
  | .reserved6 => none
  | .reserved7 => none

/-- The kind of an event (R69). -/
def Event.kind : Event → EventKind
  | .start _ => .start
  | .ovf _ _ => .ovf
  | .adc _ => .adc

/-- The STOP qualifier of the word: `sf` for START, `s` for OVF, 0 for ADC (R73). -/
def Event.stopBit : Event → Bool
  | .start sf => sf
  | .ovf s _ => s
  | .adc _ => false

/-- The reading beside the word: the ADC event's one operand (R73). -/
def Event.reading : Event → Reading
  | .start _ => 0
  | .ovf _ _ => 0
  | .adc v => v

/-- The unit of an overflow as the payload byte: the received byte in RX_BYTE, the one bit zero-extended in RX_ACK, 0 in
every other mode (R72, R74). -/
def unitData (mode : XcvrMode) (rx : Byte) : Byte :=
  match mode with
  | .rxByte => rx
  | .rxAck => (BitVec.ofBool (rx.getLsbD 0)).setWidth 8
  | .idle => 0
  | .txAck => 0
  | .txByte => 0

/-- Operand assembly of `data` (R74). -/
def eventData (mode : XcvrMode) : Event → Byte
  | .start _ => 0
  | .ovf _ rx => unitData mode rx
  | .adc _ => 0

/-- The dispatch word of an event in a state (R76), from the event, `S.st` and `S.mode` (R79). -/
def dispatchWord (s : State) (e : Event) : DispatchWord :=
  packDW (eventData s.mode e) (condBit s.cfg e.kind s.st (eventData s.mode e)) e.stopBit e.kind s.st

/-- The word of an offered item in a state: an event's own, or the one built by hand (R79, R80). -/
def Input.asWord (x : Input) (s : State) : DispatchWord :=
  match x with
  | .event e => dispatchWord s e
  | .word w _ => w

/-- The reading of an offered item. -/
def Input.operand : Input → Reading
  | .event e => e.reading
  | .word _ v => v

/-- `v[15:8]`, the high byte of a reading (R56). -/
def highByte (v : Reading) : Byte := v.extractLsb' 8 8

/-- `v[7:0]`, the low byte of a reading (R56). -/
def lowByte (v : Reading) : Byte := v.extractLsb' 0 8

/-- A legal draw: `v < 2^ADC_BITS` (spec/00_scope.md R14, spec/42_adc_events.md R104). -/
def legalDraw (p : Config) (v : Reading) : Bool := decide (v.toNat < 2 ^ p.adcBits)

end Sys2Proof.Machine
end

