-- ==== Sys2Proof/Machine/Ops.lean ====
section
/-! DEFINITION. The operations shared by the meanings: the arming primitives of spec/00_scope.md R20, `ByteAt` (R19),
the cursor, the capture of a result, entering an event's handler (spec/60_exceptions.md R122,
spec/41_overflow_events.md R92) and returning from it (R125). -/

namespace Sys2Proof.Machine

/-! ## Writes of the state record -/

/-- `st <- x`. -/
def setState (x : ProtocolState) (s : State) : State := { s with st := x }

/-- `cur <- min(cur + 1, N)`, saturating (spec/41_overflow_events.md R98). -/
def advanceCursor (s : State) : State :=
  { s with cur := ⟨min (s.cur.val + 1) 2, Nat.lt_of_le_of_lt (Nat.min_le_right _ _) (by decide)⟩ }

/-- `cur <- 0` (spec/42_adc_events.md R105). -/
def resetCursor (s : State) : State := { s with cur := 0 }

/-- `rb[0] <- v[15:8]`, then `rb[1] <- v[7:0]` (R105, spec/20_memory.md R56). -/
def captureResult (v : Reading) (s : State) : State :=
  { s with rb := ⟨some (highByte v), some (lowByte v)⟩ }

/-- `rb[k]`; no entry at or past N (spec/10_state.md R29). -/
def ResultBytes.entry (rb : ResultBytes) (k : Nat) : Option Byte :=
  match k with
  | 0 => rb.hi
  | 1 => rb.lo
  | _ => none

/-- `ByteAt(k) = if k < N then rb[k] else 0x00`; reading an unwritten byte is `fault(UnwrittenResult)` (R19, R21;
spec/93_implementation_defined.md I1). -/
def byteAt (s : State) (k : Nat) : Except Fault Byte :=
  if k < numResultBytes then
    match s.rb.entry k with
    | some b => .ok b
    | none => .error .unwrittenResult
  else .ok 0

/-! ## Arming the transceiver (R20): every one of these releases the clock -/

/-- `ReleaseBus()`. -/
def releaseBus (s : State) : State := { s with mode := .idle, clk := false }

/-- `ArmRxByte()`. -/
def armRxByte (s : State) : State := { s with mode := .rxByte, clk := false }

/-- `ArmTxAck()`. -/
def armTxAck (s : State) : State := { s with mode := .txAck, clk := false }

/-- `ArmTxByte(b)`. -/
def armTxByte (b : Byte) (s : State) : State := { s with tx := some b, mode := .txByte, clk := false }

/-- `ArmRxAck()`. -/
def armRxAck (s : State) : State := { s with mode := .rxAck, clk := false }

/-! ## Returning from a handler, and the byte send -/

/-- Return from a handler: back to the idle loop, which re-enters `slp` as the handler left it; "nothing is restored"
(R125). -/
def returnToIdle (s : State) : Answer := .next (idleAction s)

/-- `ArmTxByte(ByteAt(cur))` followed by `st <- SB`: the byte send of R98, R105 and R106. -/
def sendCursorByte (s : State) : Answer :=
  match byteAt s s.cur.val with
  | .ok b => returnToIdle (setState .sb (armTxByte b s))
  | .error r => .fault r

/-- `st <- WFS; ReleaseBus()`: the fallback to idle of R91, R93, R95, R99 and R100, with its recovery reason (R127). -/
def fallBackToIdle (r : Recovery) (s : State) : State := recover r (releaseBus (setState .wfs s))

/-- The part R105 and R106 share: capture the result, sampler off, conversion over (in that order). -/
def closeConversion (v : Reading) (s : State) : State :=
  conversionDone (adcPower false (captureResult v s))

/-! ## Entering a handler -/

/-- What the hardware does before the handler runs: an overflow holds the clock (R92); no state is saved (R122). -/
def entryEffect (k : EventKind) (s : State) : State :=
  match k with
  | .start => s
  | .ovf => holdClock s
  | .adc => s

/-- Take an event, the one entry of every meaning: an event that is not enabled has no step (R21, R121); an enabled one
wakes the core and runs its source's handler on the state as it stands (R122), in one atomic step (R123). -/
def takeEvent (k : EventKind) (s : State) (handler : State → Answer) : Answer :=
  if enabled k s then handler (entryEffect k (clearLabel s)) else .refused (.eventNotEnabled k)

end Sys2Proof.Machine
end

