-- ==== Sys2Proof/Machine/Adc.lean ====
section
/-! DEFINITION. ADC completion events (spec/42_adc_events.md R104 to R106). The common part R104: enabled while a
conversion runs in LIGHT (`takeEvent .adc`), with a reading below `2^ADC_BITS`. -/

namespace Sys2Proof.Machine

/-- Take a completion with the reading `v`; a reading that is no legal draw has no step (R104). -/
def takeCompletion (v : Reading) (s : State) (handler : State → Answer) : Answer :=
  if legalDraw s.cfg v then takeEvent .adc s handler else .refused .illegalDraw

/-- ADC.DONE.SAA (R105): capture the result, sampler off, `cur <- 0`, arm byte 0 (which releases the clock), DEEP,
`st <- SB`. -/
def execAdcDoneSaa (v : Reading) (s : State) : Answer :=
  takeCompletion v s fun s => sendCursorByte (setSleep .deep (resetCursor (closeConversion v s)))

/-- ADC.DONE.STRAY (R106): capture the result, sampler off, DEEP; then, unless `ADC_DONE_GUARDED`, `cur <- 0`, arm byte 0
and `st <- SB` as R105 does. -/
def execAdcDoneStray (v : Reading) (s : State) : Answer :=
  takeCompletion v s fun s =>
    match s.cfg.adcDoneGuarded with
    | true => returnToIdle (setSleep .deep (closeConversion v s))
    | false => sendCursorByte (resetCursor (setSleep .deep (closeConversion v s)))

end Sys2Proof.Machine
end

