-- ==== Sys2Proof/Machine/Framing.lean ====
section
/-! DEFINITION. Framing events: the START edge (spec/40_framing_events.md R89 to R91). -/

namespace Sys2Proof.Machine

/-- START.GO (R90): `st <- RA; ArmRxByte()`. -/
def execStartGo (s : State) : Answer :=
  takeEvent .start s fun s => returnToIdle (armRxByte (setState .ra s))

/-- START.STOPPED (R91): `st <- WFS; ReleaseBus()`, from every state (spec/90_conflicts.md C5). -/
def execStartStopped (s : State) : Answer :=
  takeEvent .start s fun s => returnToIdle (fallBackToIdle .stop s)

end Sys2Proof.Machine
end

