-- ==== Sys2Proof/Machine/Overflow.lean ====
section
/-! DEFINITION. Overflow events of the transceiver and clock stretching (spec/41_overflow_events.md R92 to R100). The
common part R92 (enabled while `clk` is false; `clk <- true` before the handler) is `takeEvent .ovf`. -/

namespace Sys2Proof.Machine

/-- OVF.STOP (R93): `st <- WFS; ReleaseBus()`; recovery reason STOP. -/
def execOvfStop (s : State) : Answer :=
  takeEvent .ovf s fun s => returnToIdle (fallBackToIdle .stop s)

/-- OVF.RA.MATCH (R94): `ArmTxAck(); st <- SAA`. -/
def execOvfRaMatch (s : State) : Answer :=
  takeEvent .ovf s fun s => returnToIdle (setState .saa (armTxAck s))

/-- OVF.RA.NOMATCH (R95): `st <- WFS; ReleaseBus()`; recovery reason ADDR_MISMATCH. -/
def execOvfRaNomatch (s : State) : Answer :=
  takeEvent .ovf s fun s => returnToIdle (fallBackToIdle .addrMismatch s)

/-- OVF.SAA (R96): `Stretch(); AdcPower(true); SetSleep(LIGHT); AdcStart()`; `st` and `mode` stay. -/
def execOvfSaa (s : State) : Answer :=
  takeEvent .ovf s fun s => returnToIdle (adcStart (setSleep .light (adcPower true (stretch s))))

/-- OVF.SB (R97): `ArmRxAck(); st <- RAB`. -/
def execOvfSb (s : State) : Answer :=
  takeEvent .ovf s fun s => returnToIdle (setState .rab (armRxAck s))

/-- OVF.RAB.ACK (R98): `cur <- min(cur + 1, N); ArmTxByte(ByteAt(cur)); st <- SB`. -/
def execOvfRabAck (s : State) : Answer :=
  takeEvent .ovf s fun s => sendCursorByte (advanceCursor s)

/-- OVF.RAB.NACK (R99): `st <- WFS; ReleaseBus()`; recovery reason NACK. -/
def execOvfRabNack (s : State) : Answer :=
  takeEvent .ovf s fun s => returnToIdle (fallBackToIdle .nack s)

/-- OVF.DEFAULT (R100): `st <- WFS; ReleaseBus()`; recovery reason DEFENSIVE. -/
def execOvfDefault (s : State) : Answer :=
  takeEvent .ovf s fun s => returnToIdle (fallBackToIdle .defensive s)

end Sys2Proof.Machine
end

