-- ==== Sys2Proof/Machine/Dispatch.lean ====
section
/-! DEFINITION. The dispatch of a row's rule on the state (spec/30_encoding.md R79): one arm per row of the opcode map. -/

namespace Sys2Proof.Machine

def exec (i : Instr) (s : State) : Host.Outcome State Fault Refusal :=
  match i with
  | .startStopped _ => Sys2Proof.Machine.execStartStopped s
  | .startGo _ => Sys2Proof.Machine.execStartGo s
  | .ovfStop _ _ => Sys2Proof.Machine.execOvfStop s
  | .ovfRaMatch _ => Sys2Proof.Machine.execOvfRaMatch s
  | .ovfRaNomatch _ => Sys2Proof.Machine.execOvfRaNomatch s
  | .ovfSaa => Sys2Proof.Machine.execOvfSaa s
  | .ovfSb => Sys2Proof.Machine.execOvfSb s
  | .ovfRabAck => Sys2Proof.Machine.execOvfRabAck s
  | .ovfRabNack => Sys2Proof.Machine.execOvfRabNack s
  | .ovfDefault _ => Sys2Proof.Machine.execOvfDefault s
  | .adcDoneSaa v => Sys2Proof.Machine.execAdcDoneSaa v s
  | .adcDoneStray _ v => Sys2Proof.Machine.execAdcDoneStray v s

end Sys2Proof.Machine
end

