-- ==== Sys2Proof/Machine/Stage.lean ====
section
/-! DEFINITION. Placing one dispatch word so that the next step runs it, and the boot sequence
(spec/70_reset_and_hazards.md R137, R138; notes/assumptions/2). -/

namespace Sys2Proof.Machine

/-- A byte the spec says is written in this state keeps its value, or is given one when it holds none
(spec/10_state.md R47). -/
def written (needed : Bool) (b : Option Byte) : Option Byte := if needed then some (b.getD 0) else b

/-- `s` with the word `w` and the reading `v` offered first, in the protocol state the word names and with what the spec
ties to that state and to the event being enabled: the armed unit (R43), written bytes while a result is being sent
(R47), the clock free for an overflow (R92), a conversion in flight for a completion (R104), and the clock held only
during the stall (R45). Nothing else changes. -/
def stageWord (w : DispatchWord) (v : Reading) (s : State) : State :=
  let st := dwState w
  let sending := st == .sb || st == .rab
  let done := dwKind w == some .adc
  { s with
    st := st
    mode := (armOf st).getD s.mode
    rb := ⟨written sending s.rb.hi, written sending s.rb.lo⟩
    tx := written (st == .sb) s.tx
    clk := s.clk && st == .saa && dwKind w != some .ovf
    pwr := s.pwr || done
    busy := s.busy || done
    slp := if done then .light else s.slp
    inbox := .word w v :: s.inbox }

/-- The boot sequence of R138 from whatever the machine powers up with: 1 initialise the state record and the send
register, 2 sampler off with no conversion running, 3 release the lines with the transceiver in its default mode, 4 select DEEP, 5 and 6 enable
the sources and enter the idle loop, which write no state (spec/60_exceptions.md R120, spec/43_power_idle.md R113). The
label is emptied too: no step led here (notes/assumptions/6). -/
def boot (s : State) : State :=
  let record := { s with st := .wfs, cur := 0, rb := ⟨none, none⟩, tx := none }
  let samplerOff := conversionDone (adcPower false record)
  idleAction (setSleep .deep (releaseBus (clearLabel samplerOff)))

end Sys2Proof.Machine
end

