-- ==== Sys2Proof/Machine/Step.lean ====
section
/-! DEFINITION. One step of the machine (spec/30_encoding.md R79, spec/60_exceptions.md R123): "a model step is
an event" (spec/43_power_idle.md R113), so with nothing offered there is none; otherwise the first offered item is turned into its dispatch word, decoded, and its row's rule is applied
to the state. -/

namespace Sys2Proof.Machine

/-- One step. -/
def step (s : State) : Host.Outcome State Fault Refusal :=
  match s.inbox with
  | [] => .refused .noEventOffered
  | x :: rest =>
    match decode s.cfg (x.asWord s) x.operand with
    | .error e => .refused (.nonCanonicalDW e)
    | .ok i => if i.state = s.st then exec i { s with inbox := rest } else .refused .wordNotOfState

/-- `s` with the instruction of the bits `w` offered as the next item, so that the next step runs exactly it: bits 15..0
the dispatch word, bits 31..16 the reading (notes/assumptions/2, 11). -/
def State.withFetchWord (s : State) (nbits w : Nat) : State :=
  let x := w % 2 ^ nbits
  stageWord (BitVec.ofNat 16 x) (BitVec.ofNat 16 (x / 2 ^ 16)) s

end Sys2Proof.Machine
end

