-- ==== Sys2Proof/Machine/Outputs.lean ====
section
/-! DEFINITION. The block's outputs, "functions of the state at each quiescent point, plus one pulse per step"
(spec/10_state.md R40, R41; spec/92_eei_decisions.md D1). -/

namespace Sys2Proof.Machine

/-- What the block puts on the data line: released, low, or the 8 bits of a byte, one per clock (R41). -/
inductive SdaOut where
  | released
  | low
  | data (b : Byte)
  deriving DecidableEq, Repr

/-- The data-line output (R41): released while the clock is held, else what the armed unit drives. An unwritten `tx`
faults (spec/93_implementation_defined.md I12, spec/92_eei_decisions.md D24). -/
def sdaOut (s : State) : Except Fault SdaOut :=
  if s.clk then .ok .released
  else match s.mode with
    | .idle => .ok .released
    | .rxByte => .ok .released
    | .rxAck => .ok .released
    | .txAck => .ok .low
    | .txByte =>
      match s.tx with
      | some b => .ok (.data b)
      | none => .error .unwrittenTx

/-- `sclHeldLow = clk`: the clock-stretching output (R40). -/
def sclHeldLow (s : State) : Bool := s.clk

/-- `adcPowerEn = pwr`: the "power-gating signal" (R40). -/
def adcPowerEn (s : State) : Bool := s.pwr

/-- `adcStart`: the pulse in the label of the step that led here (R40, R22). -/
def adcStartPulse (s : State) : Bool := s.label.adcStart

/-- `sleepSel = slp` (R40). -/
def sleepSel (s : State) : SleepMode := s.slp

end Sys2Proof.Machine
end

