-- ==== Sys2Proof/Machine/Trace.lean ====
section
/-! DEFINITION. Trace syntax and pseudo-events (spec/30_encoding.md R83 to R88), and a master's moves on the bus: what the
environment offers, before it is turned into dispatch words. -/

namespace Sys2Proof.Machine

/-! ## Pseudo-events -/

/-- What the environment does, seen on the bus: an event of the block, or a STOP condition, which is no event of its own
(R87). -/
inductive BusMove where
  | event (e : Event)
  | stop
  deriving DecidableEq, Repr

/-- The pseudo-events of R84 to R88. -/
inductive Pseudo where
  /-- `ADDR x` (R84). -/
  | addr (x : Byte)
  /-- `ACKCLK` (R85). -/
  | ackClk
  /-- `READ A`, `A` = ACK or NACK (R86). -/
  | read (ack : Bool)
  /-- `STOP` (R87). -/
  | stop
  /-- `SR`, a repeated start (R87). -/
  | repeatedStart
  /-- `TXN x, v, k` (R88). -/
  | txn (x : Byte) (v : Reading) (k : Nat)
  deriving DecidableEq, Repr

/-- The overflow of a unit without payload. -/
def plainUnit : Event := .ovf false 0

/-- The overflow of an ACK/NACK unit: the bit 0 is ACK, 1 is NACK (R86). -/
def answerUnit (ack : Bool) : Event := .ovf false (if ack then 0 else 1)

/-- `READ A`: the byte shifted out, then the master's answer (R86). -/
def readByte (ack : Bool) : List Event := [plainUnit, answerUnit ack]

/-- `k` times `READ ACK`. -/
def readAcked : Nat → List Event
  | 0 => []
  | k + 1 => readByte true ++ readAcked k

/-- `TXN x, v, k`: `START`, `ADDR x`, `ACKCLK`, `ADC v=v`, then `k` times `READ ACK`, then `READ NACK` (R88). -/
def transaction (x : Byte) (v : Reading) (k : Nat) : List Event :=
  [.start false, .ovf false x, plainUnit, .adc v] ++ readAcked k ++ readByte false

/-- The events a pseudo-event expands to. `STOP` expands to none (R87). -/
def Pseudo.events : Pseudo → List Event
  | .addr x => [.ovf false x]
  | .ackClk => [plainUnit]
  | .read ack => readByte ack
  | .stop => []
  | .repeatedStart => [.start false]
  | .txn x v k => transaction x v k

/-- The events among a master's moves: what the block sees of them. -/
def seenEvents : List BusMove → List Event
  | [] => []
  | .event e :: rest => e :: seenEvents rest
  | .stop :: rest => seenEvents rest

/-- A list of events as what the environment offers. -/
def offer (es : List Event) : List Input := es.map Input.event

/-! ## Trace lines -/

/-- One hexadecimal digit, upper case as the trace lines of spec/95_test_vectors.md have it. -/
def hexDigit (n : Nat) : Char := Char.ofNat (if n < 10 then 48 + n else 55 + n)

/-- A number as `digits` hexadecimal digits. -/
def hexDigits : Nat → Nat → List Char
  | 0, _ => []
  | d + 1, n => hexDigits d (n / 16) ++ [hexDigit (n % 16)]

/-- The text of an overflow's payload in each armed unit: ` x=HH`, ` b=B` or nothing (R83). -/
def unitText (mode : XcvrMode) (rx : Byte) : List Char :=
  match mode with
  | .rxByte => [' ', 'x', '='] ++ hexDigits 2 rx.toNat
  | .rxAck => [' ', 'b', '='] ++ [if rx.getLsbD 0 then '1' else '0']
  | .idle => []
  | .txAck => []
  | .txByte => []

/-- The text of an event (R83). -/
def eventText (mode : XcvrMode) : Event → List Char
  | .start false => ['S', 'T', 'A', 'R', 'T']
  | .start true => ['S', 'T', 'A', 'R', 'T', '/', 'P']
  | .ovf false rx => ['O', 'V', 'F'] ++ unitText mode rx
  | .ovf true rx => ['O', 'V', 'F', '/', 'P'] ++ unitText mode rx
  | .adc v => ['A', 'D', 'C', ' ', 'v', '='] ++ hexDigits 4 v.toNat

/-- The trace line of an event in a state, with its dispatch word: "A line may end with `; DW=0xHHHH`" (R83). -/
def traceLine (s : State) (e : Event) : String :=
  String.ofList (eventText s.mode e ++ [';', ' ', 'D', 'W', '=', '0', 'x'] ++ hexDigits 4 (dispatchWord s e).toNat)

/-- The value of a hexadecimal digit. -/
def hexValue (c : Char) : Option Nat :=
  if 48 ≤ c.toNat ∧ c.toNat ≤ 57 then some (c.toNat - 48)
  else if 65 ≤ c.toNat ∧ c.toNat ≤ 70 then some (c.toNat - 55)
  else none

/-- The number a list of hexadecimal digits writes, from a starting value. -/
def readHex : Nat → List Char → Option Nat
  | n, [] => some n
  | n, c :: cs =>
    match hexValue c with
    | some d => readHex (16 * n + d) cs
    | none => none

/-- The payload of an overflow as its trace text gives it: two digits, one bit, or nothing (R83). -/
def readUnit : List Char → Option Byte
  | [] => some 0
  | [' ', 'x', '=', h, l] => (readHex 0 [h, l]).map (BitVec.ofNat 8)
  | [' ', 'b', '=', '0'] => some 0
  | [' ', 'b', '=', '1'] => some 1
  | _ => none

/-- The part of a trace line before its `;`. -/
def beforeComment (line : List Char) : List Char := line.takeWhile fun c => c != ';'

/-- The event a trace line names, with or without the word after `;` (R83); none for any other text. -/
def readEvent (line : List Char) : Option Event :=
  match beforeComment line with
  | ['S', 'T', 'A', 'R', 'T'] => some (.start false)
  | ['S', 'T', 'A', 'R', 'T', '/', 'P'] => some (.start true)
  | 'O' :: 'V' :: 'F' :: '/' :: 'P' :: rest => (readUnit rest).map (Event.ovf true)
  | 'O' :: 'V' :: 'F' :: rest => (readUnit rest).map (Event.ovf false)
  | ['A', 'D', 'C', ' ', 'v', '=', a, b, c, d] => (readHex 0 [a, b, c, d]).map fun n => .adc (BitVec.ofNat 16 n)
  | _ => none

end Sys2Proof.Machine
end

