-- ==== Sys2Proof/Safety.lean ====
section
/-! DEFINITION. The terms claims use: the invariants INV1 to INV6 (spec/10_state.md R43 to R48), runs, the environment
contract (spec/60_exceptions.md R131), and which row an event meeting a state selects (spec/30_encoding.md R78). -/

namespace Sys2Proof.Machine

/-! ## Invariants -/

/-- INV1: `mode = armOf(st)` (R43). It also says that `st` is one of the five legal values (R51). -/
abbrev ModeFollowsState (s : State) : Prop := armOf s.st = some s.mode

/-- INV2: `pwr = busy = (slp = LIGHT)` (R44). -/
abbrev PowerFollowsConversion (s : State) : Prop := s.pwr = s.busy ∧ (s.busy = true ↔ s.slp = .light)

/-- INV3: `clk = true` implies `st = SAA`, `mode = TX_ACK` and `busy = true` (R45). -/
abbrev ClockHeldOnlyInStall (s : State) : Prop := s.clk = true → s.st = .saa ∧ s.mode = .txAck ∧ s.busy = true

/-- INV4: `cur <= N` (R46). -/
abbrev CursorWithinResult (s : State) : Prop := s.cur.val ≤ numResultBytes

/-- What INV5 rests on (R47): the result is written wherever `ByteAt` may be called, and `tx` wherever it is driven. -/
abbrev BytesWrittenBeforeRead (s : State) : Prop :=
  (s.st = .sb ∨ s.st = .rab → s.rb.hi ≠ none ∧ s.rb.lo ≠ none) ∧ (s.mode = .txByte → s.tx ≠ none)

/-- INV6, which needs the contract: `busy = true` implies `st = SAA` and `clk = true` (R48). -/
abbrev ConversionOnlyInStall (s : State) : Prop := s.busy = true → s.st = .saa ∧ s.clk = true

/-- INV1 to INV5 together: what holds at every quiescent point of every run, superset runs included. -/
structure Inv (s : State) : Prop where
  mode_follows_state : ModeFollowsState s
  power_follows_conversion : PowerFollowsConversion s
  clock_held_only_in_stall : ClockHeldOnlyInStall s
  cursor_within_result : CursorWithinResult s
  bytes_written : BytesWrittenBeforeRead s

/-- Two states agree on everything the spec gives the block and its parameters (R25): they may differ in the output label
and in what is offered next. -/
abbrev SameBlock (s t : State) : Prop :=
  t.cfg = s.cfg ∧ t.st = s.st ∧ t.cur = s.cur ∧ t.rb = s.rb ∧ t.tx = s.tx ∧ t.mode = s.mode ∧ t.clk = s.clk ∧
    t.pwr = s.pwr ∧ t.busy = s.busy ∧ t.slp = s.slp

/-! ## Runs -/

/-- `k` steps, stopping at the first fault or refusal: the host's `Core.run` of this machine
(`core_run_eq_runSteps`, Laws/Runs.lean). -/
def runSteps : Nat → State → Answer
  | 0, s => .next s
  | k + 1, s =>
    match step s with
    | .next t => runSteps k t
    | .fault r => .fault r
    | .refused r => .refused r

/-- How many conversions the first `k` steps from `s` start: the adcStart pulses in their labels (spec/00_scope.md R22). A
run that stops counts the steps before the stop. -/
def pulsesIn : Nat → State → Nat
  | 0, _ => 0
  | k + 1, s =>
    match step s with
    | .next t => (if t.label.adcStart then 1 else 0) + pulsesIn k t
    | .fault _ => 0
    | .refused _ => 0

/-- The bytes the transceiver shifts out in the first `k` steps from `s`: the `tx` of each state whose step ends a
TX_BYTE unit without a STOP, that is, whose first offer is an overflow in SendingBytes (spec/41_overflow_events.md R97,
R103). -/
def bytesSent : Nat → State → List Byte
  | 0, _ => []
  | k + 1, s =>
    match step s with
    | .next t => (if s.st == .sb && t.st == .rab then s.tx.toList else []) ++ bytesSent k t
    | .fault _ => []
    | .refused _ => []

/-! ## The environment contract (R131) -/

/-- Whether what is offered first is a START, as an event or as a word. -/
def offersStart (s : State) : Bool :=
  match s.inbox with
  | [] => false
  | .event e :: _ => e.kind == .start
  | .word w _ :: _ => dwKind w == some .start

/-- Clause (a): no START while the clock is held. -/
abbrev NoStartDuringStall (s : State) : Prop := offersStart s = true → s.clk = false

/-- Clause (b): "An OVF carries `s` = 1 exactly when the master issued a STOP after the previous event and before the
unit ended". `stopped` says whether a STOP was issued since the previous event. -/
def stopReportsHonest : Bool → List BusMove → Bool
  | _, [] => true
  | _, .stop :: rest => stopReportsHonest true rest
  | stopped, .event (.ovf s _) :: rest => s == stopped && stopReportsHonest false rest
  | _, .event (.start _) :: rest => stopReportsHonest false rest
  | _, .event (.adc _) :: rest => stopReportsHonest false rest

/-- Where the bus stands in a master's transaction, in the §6 shape of clause (c): no transaction of this device, the
address byte, its ACK bit, the stretch, a byte of the result, the master's answer to it. -/
inductive BusPhase where
  | idle
  | address
  | ackBit
  | stretch
  | byte
  | answer
  deriving DecidableEq, Repr

/-- The phase the end of a unit without a STOP leads to: "START, address byte, clocking the ACK, waiting out the stretch,
then byte reads each answered by ACK or NACK". Units of other transactions are counted while idle
(spec/41_overflow_events.md R100). -/
def afterUnit (p : Config) (rx : Byte) : BusPhase → BusPhase
  | .idle => .idle
  | .address => if rx = p.addrMatchByte then .ackBit else .idle
  | .ackBit => .stretch
  | .stretch => .stretch
  | .byte => .answer
  | .answer => if rx.getLsbD 0 then .idle else .byte

/-- The phase a move leads to; none for a move the shape does not admit. In the stretch the master waits for the
completion, which has a legal reading (spec/42_adc_events.md R104); in every other phase it may end a unit, issue a STOP or
begin with a START (spec/95_test_vectors.md P-a to P-f). -/
def nextPhase (p : Config) (ph : BusPhase) : BusMove → Option BusPhase
  | .stop => if ph = .stretch then none else some ph
  | .event (.start sf) => if ph = .stretch then none else some (if sf then .idle else .address)
  | .event (.ovf s rx) => if ph = .stretch then none else some (if s then .idle else afterUnit p rx ph)
  | .event (.adc v) => if ph = .stretch ∧ legalDraw p v = true then some .byte else none

/-- Clause (c): every move is one the shape admits in the phase it meets (notes/assumptions/15). -/
def followsShape (p : Config) : BusPhase → List BusMove → Bool
  | _, [] => true
  | ph, m :: rest =>
    match nextPhase p ph m with
    | some q => followsShape p q rest
    | none => false

/-- The phase of the bus a state of the block belongs to. -/
def busPhase (s : State) : BusPhase :=
  match s.st with
  | .ra => .address
  | .saa => if s.clk then .stretch else .ackBit
  | .sb => .byte
  | .rab => .answer
  | .wfs => .idle
  | .reserved5 => .idle
  | .reserved6 => .idle
  | .reserved7 => .idle

/-- A contract run from `s`: it offers the events of moves that meet (b) and (c), no START is offered while the clock is
held (a), and every conversion begun completes after finitely many steps (d). -/
structure ContractRun (moves : List BusMove) (s : State) : Prop where
  offered : s.inbox = offer (seenEvents moves)
  no_start_during_stall : ∀ k t, runSteps k s = .next t → NoStartDuringStall t
  honest : stopReportsHonest false moves = true
  shape : followsShape s.cfg (busPhase s) moves = true
  conversions_complete : ∀ k t, runSteps k s = .next t → t.busy = true →
    ∃ m u, runSteps m t = .next u ∧ u.busy = false

/-! ## Rows -/

/-- The row a canonical word's fields select, as R78 lists the coverage: every START by `sf`; an OVF with a STOP in every
state; an OVF without one by state and condition bit; an ADC by whether the state is SendingAddressAck. -/
def rowOfFields (k : EventKind) (s : Bool) (st : ProtocolState) (c : Bool) : Opcode :=
  match k, s, st, c with
  | .start, true, _, _ => .startStopped
  | .start, false, _, _ => .startGo
  | .ovf, true, _, _ => .ovfStop
  | .ovf, false, .ra, true => .ovfRaMatch
  | .ovf, false, .ra, false => .ovfRaNomatch
  | .ovf, false, .saa, _ => .ovfSaa
  | .ovf, false, .sb, _ => .ovfSb
  | .ovf, false, .rab, false => .ovfRabAck
  | .ovf, false, .rab, true => .ovfRabNack
  | .ovf, false, .wfs, _ => .ovfDefault
  | .ovf, false, .reserved5, _ => .ovfDefault
  | .ovf, false, .reserved6, _ => .ovfDefault
  | .ovf, false, .reserved7, _ => .ovfDefault
  | .adc, _, .saa, _ => .adcDoneSaa
  | .adc, _, _, _ => .adcDoneStray

/-- The instruction an event selects in a state, said from the transition list of spec/41 and spec/42 and not from the
encoding: by the event's kind, its qualifiers, `st` and the armed unit's payload (R69 to R75). -/
def selectedInstr (s : State) : Event → Instr
  | .start true => .startStopped s.st
  | .start false => .startGo s.st
  | .ovf true rx => .ovfStop s.st (unitData s.mode rx)
  | .ovf false rx =>
    match s.st with
    | .ra => if rx = s.cfg.addrMatchByte then .ovfRaMatch rx else .ovfRaNomatch rx
    | .saa => .ovfSaa
    | .sb => .ovfSb
    | .rab => if rx.getLsbD 0 then .ovfRabNack else .ovfRabAck
    | .wfs => .ovfDefault .wfs
    | .reserved5 => .ovfDefault .reserved5
    | .reserved6 => .ovfDefault .reserved6
    | .reserved7 => .ovfDefault .reserved7
  | .adc v => if s.st = .saa then .adcDoneSaa v else .adcDoneStray s.st v

end Sys2Proof.Machine
end

