-- ==== Sys2Proof/Certificates/Slice0/Obligations.lean ====
section
/-! DEFINITION. The statements for the provers. `OBLIGATIONS.json` lists them with the rules they formalise. A result is
stated as the whole next state, `.next { s with ... }`: every field not named there is unchanged, which is the
instruction's frame (the block has no memory besides these fields, spec/20_memory.md R53). -/

open Sys2Proof Sys2Proof.Machine

/-! ## Encoding -/

/-- Decoding the word of a well-formed instruction, with its reading beside it, gives the instruction back, for every
value of the parameters and every operand (R73, R76, R77, R80). -/
def Obligations.DecodeOfEncodeIsTheInstruction : Prop :=
  ∀ (p : Config) (i : Instr), i.wellFormed p = true → decode p (encode p i) i.reading = .ok i

/-- What the decoder reads is well formed and encodes to the word it was read from; an ADC row reads the reading beside
the word (R73 to R80). -/
def Obligations.EncodeOfDecodeIsTheWord : Prop :=
  ∀ (p : Config) (w : DispatchWord) (v : Reading) (i : Instr), decode p w v = .ok i →
    i.wellFormed p = true ∧ encode p i = w ∧ (i.kind = .adc → i.reading = v)

/-- R80: the decoder refuses exactly the words that are not canonical, a non-canonical word offered to the machine is
refused by name with no next state, and the pre-decoder makes only canonical words of events (under INV1, which ties the
armed unit to `st`). R80 rests on the spec's own decision D7. -/
def Obligations.NonCanonicalWordsAreRefused : Prop :=
  (∀ (p : Config) (w : DispatchWord) (v : Reading), (∃ e, decode p w v = .error e) ↔ ¬ Canonical p w) ∧
  (∀ (s : State) (w : DispatchWord) (v : Reading) (rest : List Input), s.inbox = .word w v :: rest →
    ¬ Canonical s.cfg w → ∃ e, step s = .refused (.nonCanonicalDW e)) ∧
  (∀ (s : State) (e : Event), ModeFollowsState s → Canonical s.cfg (dispatchWord s e))

/-- R78: a canonical word selects exactly the row that its kind, STOP qualifier, state and condition bit name, and the
decoder gives an instruction of that row. R78 is the spec's own derivation from R73, R77 and R80. -/
def Obligations.CanonicalWordSelectsTheRowOfItsFields : Prop :=
  ∀ (p : Config) (w : DispatchWord) (v : Reading), Canonical p w →
    ∃ (k : EventKind) (i : Instr), dwKind w = some k ∧
      selectRow w = some (rowOfFields k (dwStop w) (dwState w) (dwCond w)) ∧
      decode p w v = .ok i ∧ i.opcode = rowOfFields k (dwStop w) (dwState w) (dwCond w)

/-- Words written out from spec/95_test_vectors.md section 3 decode to the events they stand for, at the default
parameters and at the slipped address 0x00 (E34, E35). -/
def Obligations.WordsOfTheSpecDecode : Prop :=
  decode Config.standard 0x0020#16 0 = .ok (.startStopped .wfs) ∧
  decode Config.standard 0x0004#16 0 = .ok (.startGo .rab) ∧
  decode Config.standard 0x8369#16 0 = .ok (.ovfStop .ra 0x83#8) ∧
  decode Config.standard 0x8349#16 0 = .ok (.ovfRaMatch 0x83#8) ∧
  decode Config.standard 0x8209#16 0 = .ok (.ovfRaNomatch 0x82#8) ∧
  decode Config.standard 0x014C#16 0 = .ok .ovfRabNack ∧
  decode Config.standard 0x000D#16 0 = .ok (.ovfDefault .reserved5) ∧
  decode Config.standard 0x0012#16 0x0237#16 = .ok (.adcDoneSaa 0x0237#16) ∧
  decode { Config.standard with addrMatchByte := 0 } 0x0049#16 0 = .ok (.ovfRaMatch 0) ∧
  decode { Config.standard with addrMatchByte := 0 } 0x8309#16 0 = .ok (.ovfRaNomatch 0x83#8)

/-- In the state an event meets, every canonical word of that state is the word of some event: the pre-decoder reaches
every word it may (R79, R80). -/
def Obligations.EveryCanonicalWordIsAnEventsWord : Prop :=
  ∀ (s : State) (w : DispatchWord), ModeFollowsState s → Canonical s.cfg w → dwState w = s.st →
    ∃ e : Event, dispatchWord s e = w

/-- R12, R94, R95: with the address byte of a 7-bit address `a`, an overflow in ReceivingAddress leads to
SendingAddressAck exactly when the received byte is `2a + 1`; every other byte of the 256 leads to WaitingForStart. -/
def Obligations.OnlyTheReadHeaderIsAcknowledged : Prop :=
  ∀ (s : State) (a : BitVec 7) (rx : Byte) (rest : List Input), s.cfg.addrMatchByte = readHeader a →
    ModeFollowsState s → s.st = .ra → s.clk = false → s.inbox = .event (.ovf false rx) :: rest →
    ∃ t, step s = .next t ∧ (t.st = .saa ↔ rx.toNat = 2 * a.toNat + 1) ∧ (t.st = .wfs ↔ rx.toNat ≠ 2 * a.toNat + 1)

/-! ## The step -/

/-- R79: when the word of what is offered first decodes to an instruction of the state the machine is in, a step is that
instruction on the state with the offer taken; for an event the word is always one of that state. That the
environment's offers stand in `inbox`, and that a hand-built word of the machine's state runs too, are the model's choices
(notes/assumptions/1 and 10): R79 speaks of events. -/
def Obligations.StepRunsTheDecodedInstruction : Prop :=
  (∀ (s : State) (x : Input) (rest : List Input) (i : Instr), s.inbox = x :: rest →
    decode s.cfg (x.asWord s) x.operand = .ok i → i.state = s.st → step s = exec i { s with inbox := rest }) ∧
  (∀ (s : State) (e : Event) (rest : List Input) (i : Instr), s.inbox = .event e :: rest →
    decode s.cfg (dispatchWord s e) e.reading = .ok i → step s = exec i { s with inbox := rest })

/-- With nothing offered there is no step (R21, R113, R121), and the idle action the core then executes writes no state
(R113, the spec's own decision D10). The refusal's name is the model's (notes/assumptions/3). -/
def Obligations.SleepsWhileNothingIsOffered : Prop :=
  ∀ s : State, (s.inbox = [] → step s = .refused .noEventOffered) ∧ idleAction s = s

/-- "A model step is an event" (R113), and only an enabled event has one (R121): a step that answers a next state took an
offered item whose word has a kind that was enabled. R121 is the spec's own derivation from its decisions D14, D17, D20
and D21; the offers' list is notes/assumptions/1. -/
def Obligations.EveryStepTakesAnEnabledEvent : Prop :=
  ∀ s t : State, step s = .next t →
    ∃ (x : Input) (k : EventKind), s.inbox = x :: t.inbox ∧ dwKind (x.asWord s) = some k ∧ enabled k s = true

/-- Under INV1, an event runs the transition that its kind, its qualifiers, `st` and the received unit select
(R69 to R79): no event is refused for its encoding and none runs another row. -/
def Obligations.EventRunsItsTransition : Prop :=
  ∀ (s : State) (e : Event) (rest : List Input), ModeFollowsState s → s.inbox = .event e :: rest →
    step s = exec (selectedInstr s e) { s with inbox := rest }

/-- A step that answers a next state never writes the parameters and takes exactly one offer, the first. That the offers
stand in `inbox`, that there is no step without one, and that the parameters stand in `cfg` are notes/assumptions/1, 3 and
5. -/
def Obligations.StepKeepsParametersAndTakesOneOffer : Prop :=
  ∀ s t : State, step s = .next t → t.cfg = s.cfg ∧ ∃ x : Input, s.inbox = x :: t.inbox

/-- The host's placing of a word (a helper of the model, notes/assumptions/2): the next step runs exactly the instruction
the word decodes to and completes, and the placing keeps the invariants. -/
def Obligations.StagedWordRunsNext : Prop :=
  ∀ (s : State) (w : DispatchWord) (v : Reading) (i : Instr), decode s.cfg w v = .ok i →
    legalDraw s.cfg i.reading = true →
    (∃ t, step (stageWord w v s) = .next t ∧ exec i { stageWord w v s with inbox := s.inbox } = .next t) ∧
    (Inv s → armOf (dwState w) ≠ none → Inv (stageWord w v s))

/-! ## What each operation does -/

/-- R90: every canonical word of the row decodes to START.GO, and START.GO in every state, in both sleep modes and whether
or not the clock is held, writes `st`, `mode` and `clk` and nothing else of the block. That it is
enabled in every state and writes nothing else is the spec's own choice (R89, D17, D30; notes/assumptions/14);
the empty output label is notes/assumptions/6. -/
def Obligations.StartGoArmsTheAddressByte : Prop :=
  (∀ (p : Config) (w : DispatchWord) (v : Reading), Canonical p w → w &&& 0x0038#16 = 0x0000#16 →
    decode p w v = .ok (.startGo (dwState w))) ∧
  (∀ (st : ProtocolState) (s : State),
    exec (.startGo st) s = .next { s with st := .ra, mode := .rxByte, clk := false, label := Label.quiet })

/-- R91: every canonical word of the row decodes to START.STOPPED, and START.STOPPED forces WaitingForStart and releases
the bus from every state; from WaitingForStart with the bus released it changes nothing of the block. That it forces
WaitingForStart from the other states is the spec's own choice (D12, C5; notes/assumptions/14), and so is
that it is enabled in every state, the clock held included (R89, D17, D30). The recovery reason STOP is R127's (D27), in the
model's field `label` (notes/assumptions/6). -/
def Obligations.StartStoppedReleasesTheBus : Prop :=
  (∀ (p : Config) (w : DispatchWord) (v : Reading), Canonical p w → w &&& 0x0038#16 = 0x0020#16 →
    decode p w v = .ok (.startStopped (dwState w))) ∧
  (∀ (st : ProtocolState) (s : State),
    exec (.startStopped st) s =
      .next { s with st := .wfs, mode := .idle, clk := false, label := ⟨false, .stop⟩ }) ∧
  (∀ (st : ProtocolState) (s t : State), s.st = .wfs → s.mode = .idle → s.clk = false →
    exec (.startStopped st) s = .next t → SameBlock s t)

/-- R93, R95, R99, R100: the four overflows that fall back to idle complete whenever the clock is not held, write `st`,
`mode` and `clk` only, and differ in the recovery reason alone (R127). -/
def Obligations.FallbackOverflowsReturnToIdle : Prop :=
  ∀ s : State, s.clk = false →
    (∀ (st : ProtocolState) (data : Byte), exec (.ovfStop st data) s =
      .next { s with st := .wfs, mode := .idle, clk := false, label := ⟨false, .stop⟩ }) ∧
    (∀ rx : Byte, exec (.ovfRaNomatch rx) s =
      .next { s with st := .wfs, mode := .idle, clk := false, label := ⟨false, .addrMismatch⟩ }) ∧
    (exec .ovfRabNack s =
      .next { s with st := .wfs, mode := .idle, clk := false, label := ⟨false, .nack⟩ }) ∧
    (∀ st : ProtocolState, exec (.ovfDefault st) s =
      .next { s with st := .wfs, mode := .idle, clk := false, label := ⟨false, .defensive⟩ })

/-- R94: a canonical word of the row carries `ADDR_MATCH_BYTE` and decodes to OVF.RA.MATCH, which arms the address ACK bit,
moves to SendingAddressAck and drives the data line low. The canonical form and the condition bit are the spec's own choices
(R80, D7; R75, D9); that `exec` does not compare the instruction's byte again is notes/assumptions/12, and the empty label
notes/assumptions/6. -/
def Obligations.AddressMatchArmsTheAckBit : Prop :=
  (∀ (p : Config) (w : DispatchWord) (v : Reading), Canonical p w → w &&& 0x007F#16 = 0x0049#16 →
    dwData w = p.addrMatchByte ∧ decode p w v = .ok (.ovfRaMatch p.addrMatchByte)) ∧
  (∀ (rx : Byte) (s : State), s.clk = false →
    exec (.ovfRaMatch rx) s =
        .next { s with st := .saa, mode := .txAck, clk := false, label := Label.quiet } ∧
      sdaOut { s with st := .saa, mode := .txAck, clk := false, label := Label.quiet } = .ok .low)

/-- R96, R107: the end of the address ACK bit leaves the clock held, powers the sampler, selects LIGHT and starts a
conversion; the adcStart pulse marks the step exactly when no conversion was running; the data line is released. The
pulse's guard and the released line are the spec's own choices (D19, D18; notes/assumptions/14). -/
def Obligations.AckBitEndHoldsClockAndStartsConversion : Prop :=
  ∀ s : State, s.clk = false →
    exec .ovfSaa s =
        .next { s with clk := true, pwr := true, busy := true, slp := .light, label := ⟨!s.busy, .none⟩ } ∧
      sdaOut { s with clk := true, pwr := true, busy := true, slp := .light, label := ⟨!s.busy, .none⟩ } =
        .ok .released

/-- R97: a sent byte arms reception of the master's ACK/NACK, moves to ReceivingAckBytes and changes nothing else; the
cursor stays. Every canonical word of the row decodes to OVF.SB. The canonical form is the spec's own choice (R80, D7) and
the empty label the model's (R127, D27; notes/assumptions/6). -/
def Obligations.SentByteArmsTheAnswerBit : Prop :=
  (∀ (p : Config) (w : DispatchWord) (v : Reading), Canonical p w → w &&& 0x003F#16 = 0x000B#16 →
    decode p w v = .ok .ovfSb) ∧
  (∀ s : State, s.clk = false →
    exec .ovfSb s = .next { s with st := .rab, mode := .rxAck, clk := false, label := Label.quiet })

/-- R97, its own words: a word selects row 7 when `DW & 0x003F` is 0x000B and only then; the handler makes `mode` RX_ACK,
`clk` false and `st` RAB, the data line is released, and `cur` is not changed. -/
def Obligations.SentByteRowAndWrites : Prop :=
  (∀ w : DispatchWord, selectRow w = some .ovfSb ↔ w &&& 0x003F#16 = 0x000B#16) ∧
  ∀ s : State, s.clk = false →
    ∃ t, exec .ovfSb s = .next t ∧ t.mode = .rxAck ∧ t.clk = false ∧ sdaOut t = .ok .released ∧ t.st = .rab ∧
      t.cur = s.cur

/-- R98, R19: a master ACK advances the cursor, saturating at 2, and arms the byte it then names: the low byte after byte
0, zero padding from there on. Every canonical word of the row decodes to OVF.RAB.ACK. That the unreachable cursor 3 acts as
2 is the model's choice (notes/assumptions/8). From byte 0 with the low byte unwritten, a state no run reaches (R47), it is
the fault of R19 (notes/assumptions/19); R98 itself has no exception. The empty label is notes/assumptions/6. -/
def Obligations.MasterAckArmsTheNextByte : Prop :=
  (∀ (p : Config) (w : DispatchWord) (v : Reading), Canonical p w → w &&& 0x007F#16 = 0x000C#16 →
    decode p w v = .ok .ovfRabAck) ∧
  ∀ s : State, s.clk = false →
    (∀ b : Byte, s.cur.val = 0 → s.rb.lo = some b →
      exec .ovfRabAck s = .next
        { s with st := .sb, cur := 1, tx := some b, mode := .txByte, clk := false, label := Label.quiet }) ∧
    (1 ≤ s.cur.val →
      exec .ovfRabAck s = .next
        { s with st := .sb, cur := 2, tx := some 0, mode := .txByte, clk := false, label := Label.quiet }) ∧
    (s.cur.val = 0 → s.rb.lo = none → exec .ovfRabAck s = .fault .unwrittenResult)

/-- R98, its own words: a word selects row 8 when `DW & 0x007F` is 0x000C and only then; with a legal cursor and the low
byte written, `cur` becomes min(cur + 1, 2), `tx` the byte that the new cursor names, or 0x00 at 2, `mode` TX_BYTE, `clk`
false and `st` SB. -/
def Obligations.MasterAckRowAndWrites : Prop :=
  (∀ w : DispatchWord, selectRow w = some .ovfRabAck ↔ w &&& 0x007F#16 = 0x000C#16) ∧
  ∀ (s : State) (b : Byte), s.clk = false → s.cur.val ≤ 2 → s.rb.lo = some b →
    ∃ t, exec .ovfRabAck s = .next t ∧ t.cur.val = min (s.cur.val + 1) 2 ∧
      t.tx = (if t.cur.val < 2 then t.rb.entry t.cur.val else some 0) ∧ t.mode = .txByte ∧ t.clk = false ∧ t.st = .sb

/-- R105: a completion in SendingAddressAck stores the reading high byte first, turns the sampler off, resets the cursor,
arms the high byte (which releases the clock), selects DEEP and moves to SendingBytes, whether or not the clock was
held. The cursor's reset is the spec's own choice (D11; notes/assumptions/14); the empty label is
notes/assumptions/6. -/
def Obligations.CompletionCapturesAndArmsTheHighByte : Prop :=
  ∀ (v : Reading) (s : State), s.busy = true → s.slp = .light → v.toNat < 2 ^ s.cfg.adcBits →
    exec (.adcDoneSaa v) s = .next
      { s with
        st := .sb, cur := 0, rb := ⟨some (v.extractLsb' 8 8), some (v.extractLsb' 0 8)⟩,
        tx := some (v.extractLsb' 8 8), mode := .txByte, clk := false, pwr := false, busy := false, slp := .deep,
        label := Label.quiet }

/-- R106: a completion in any other state captures the result and closes the power bracket for both values of
`ADC_DONE_GUARDED`; unguarded it then acts as R105, guarded it leaves `st`, `mode`, `clk`, `cur` and `tx`. The parameter
is the spec's own choice (D4; notes/assumptions/5, 14). -/
def Obligations.StrayCompletionClosesThePowerBracket : Prop :=
  ∀ (st : ProtocolState) (v : Reading) (s : State), s.busy = true → s.slp = .light →
    v.toNat < 2 ^ s.cfg.adcBits →
    (s.cfg.adcDoneGuarded = false → exec (.adcDoneStray st v) s = .next
      { s with
        st := .sb, cur := 0, rb := ⟨some (v.extractLsb' 8 8), some (v.extractLsb' 0 8)⟩,
        tx := some (v.extractLsb' 8 8), mode := .txByte, clk := false, pwr := false, busy := false, slp := .deep,
        label := Label.quiet }) ∧
    (s.cfg.adcDoneGuarded = true → exec (.adcDoneStray st v) s = .next
      { s with
        rb := ⟨some (v.extractLsb' 8 8), some (v.extractLsb' 0 8)⟩, pwr := false, busy := false, slp := .deep,
        label := Label.quiet })

/-- R56: a completion that runs stores the reading high byte first, in SendingAddressAck and elsewhere, guarded or not; and
the bytes go on the bus in that order: the completion of a read arms the high byte, and the master's ACK of it the low
byte. -/
def Obligations.ResultIsStoredAndSentHighByteFirst : Prop :=
  ∀ (st : ProtocolState) (v : Reading) (s : State), s.busy = true → s.slp = .light → v.toNat < 2 ^ s.cfg.adcBits →
    (∃ t, exec (.adcDoneStray st v) s = .next t ∧ t.rb = ⟨some (v.extractLsb' 8 8), some (v.extractLsb' 0 8)⟩) ∧
    ∃ t u w, exec (.adcDoneSaa v) s = .next t ∧ t.rb = ⟨some (v.extractLsb' 8 8), some (v.extractLsb' 0 8)⟩ ∧
      t.tx = some (v.extractLsb' 8 8) ∧ exec .ovfSb t = .next u ∧ exec .ovfRabAck u = .next w ∧
      w.tx = some (v.extractLsb' 0 8)

/-- R121, R112: an operation is refused for not being enabled exactly when its source's condition fails: never for START,
while the clock is held for OVF, without a conversion in LIGHT for ADC. (The name of that stop is the model's,
notes/assumptions/4; the enabling conditions rest on the spec's own decisions D14, D20 and D21.) -/
def Obligations.EventHasNoStepExactlyWhenNotEnabled : Prop :=
  ∀ (i : Instr) (s : State), i.reading.toNat < 2 ^ s.cfg.adcBits →
    (exec i s = .refused (.eventNotEnabled i.kind) ↔
      (i.kind = .ovf ∧ s.clk = true) ∨ (i.kind = .adc ∧ ¬ (s.busy = true ∧ s.slp = .light)))

/-- R104: a reading that is not below `2^ADC_BITS` has no step, in any state. (The name of that stop is the model's,
notes/assumptions/4.) -/
def Obligations.ReadingAboveResolutionHasNoStep : Prop :=
  ∀ (st : ProtocolState) (v : Reading) (s : State), 2 ^ s.cfg.adcBits ≤ v.toNat →
    exec (.adcDoneSaa v) s = .refused .illegalDraw ∧ exec (.adcDoneStray st v) s = .refused .illegalDraw

/-- R19: `ByteAt` gives the byte where one is written, zero at and past N, and the fault for an unwritten byte. -/
def Obligations.ByteAtReadsOrPads : Prop :=
  ∀ s : State,
    (∀ b : Byte, s.rb.hi = some b → byteAt s 0 = .ok b) ∧ (∀ b : Byte, s.rb.lo = some b → byteAt s 1 = .ok b) ∧
    (s.rb.hi = none → byteAt s 0 = .error .unwrittenResult) ∧
    (s.rb.lo = none → byteAt s 1 = .error .unwrittenResult) ∧ (∀ k : Nat, 2 ≤ k → byteAt s k = .ok 0)

/-- R41: the data line is released while the clock is held; else it is low in TX_ACK, carries `tx` in TX_BYTE, and is
released in IDLE, RX_BYTE and RX_ACK. The line released in a stall is the spec's own choice (D18; notes/assumptions/14). -/
def Obligations.DataLineFollowsTheArmedUnit : Prop :=
  ∀ s : State,
    (s.clk = true → sdaOut s = .ok .released) ∧
    (s.clk = false → s.mode = .idle ∨ s.mode = .rxByte ∨ s.mode = .rxAck → sdaOut s = .ok .released) ∧
    (s.clk = false → s.mode = .txAck → sdaOut s = .ok .low) ∧
    (∀ b : Byte, s.clk = false → s.mode = .txByte → s.tx = some b → sdaOut s = .ok (.data b))

/-! ## Invariants -/

/-- INV1 to INV6 hold right after reset, and the default parameters are legal (R49, R14). -/
def Obligations.ResetMeetsTheInvariants : Prop :=
  Inv State.reset ∧ ConversionOnlyInStall State.reset ∧ State.reset.cfg.Legal

/-- R137, R138, R49: the boot sequence puts every field of the block at its reset value whatever the machine powered up
with, and leaves the parameters. (The empty label and the offers are the model's own, notes/assumptions/1 and 6; the reset
values of `tx` and `clk` are the spec's own choice, D24; that boot writes `tx` and `busy` is notes/assumptions/21.) -/
def Obligations.BootSequenceReachesReset : Prop :=
  ∀ s : State,
    boot s = { State.reset with cfg := s.cfg, inbox := s.inbox } ∧
    (boot s).st = .wfs ∧ (boot s).cur = 0 ∧ (boot s).rb = ⟨none, none⟩ ∧ (boot s).tx = none ∧ (boot s).mode = .idle ∧
    (boot s).clk = false ∧ (boot s).pwr = false ∧ (boot s).busy = false ∧ (boot s).slp = .deep

/-- INV1 to INV5 (R43 to R47) are kept by every step from every state that meets them, superset runs and hand-built words
included, for every value of the parameters. R43 to R47 are the spec's own derivations from its handler rules. -/
def Obligations.EveryStepKeepsTheInvariants : Prop :=
  ∀ s t : State, Inv s → step s = .next t → Inv t

/-- R48: under contract clause (a) a conversion runs only in the stall, and every step keeps that; without the clause a
START during the stall breaks it. R48 is the spec's own derivation; the contract's formal form is notes/assumptions/15. -/
def Obligations.ConversionStaysInStallUnderContract : Prop :=
  (∀ s t : State, ConversionOnlyInStall s → NoStartDuringStall s → step s = .next t → ConversionOnlyInStall t) ∧
  (∃ s t : State, Inv s ∧ ConversionOnlyInStall s ∧ ¬ NoStartDuringStall s ∧ step s = .next t ∧
    ¬ ConversionOnlyInStall t)

/-- R47, R128: along every run from a state that meets the invariants no step faults, and at no state of it does the
data-line output read an unwritten byte. R47 is the spec's own derivation. -/
def Obligations.NoRunReadsAnUnwrittenByte : Prop :=
  ∀ (s : State) (k : Nat), Inv s →
    (∀ r : Fault, runSteps k s ≠ .fault r) ∧
    (∀ t : State, runSteps k s = .next t → ∀ r : Fault, sdaOut t ≠ .error r)

/-- Along every contract run that starts in a state meeting INV1 to INV6, all six hold at every quiescent point
(R43 to R48, R131). The contract's formal form is notes/assumptions/15; of its clauses the conclusion needs (a) alone. -/
def Obligations.ContractRunsMeetAllSixInvariants : Prop :=
  ∀ (moves : List BusMove) (s : State), ContractRun moves s → Inv s → ConversionOnlyInStall s →
    ∀ (k : Nat) (t : State), runSteps k s = .next t → Inv t ∧ ConversionOnlyInStall t

/-- A master that follows the transaction shape (R131 (c)) from wherever the block stands is served to the end: every event
it causes has its step, no START is offered in a stall on the way (clause (a) follows from (c)), and all six invariants
hold at the end. The shape's formal form is notes/assumptions/15. -/
def Obligations.TransactionShapeIsServedToTheEnd : Prop :=
  ∀ (moves : List BusMove) (s : State) (rest : List Input), Inv s → ConversionOnlyInStall s →
    s.inbox = offer (seenEvents moves) ++ rest → followsShape s.cfg (busPhase s) moves = true →
    (∃ t, runSteps (seenEvents moves).length s = .next t ∧ t.inbox = rest ∧ Inv t ∧ ConversionOnlyInStall t) ∧
    (∀ (k : Nat) (u : State), k < (seenEvents moves).length → runSteps k s = .next u → NoStartDuringStall u)

/-! ## Whole-machine rules -/

/-- R44, R114: OVF.SAA sets `pwr`, `busy` and `slp` = LIGHT together, the two completions clear all three together, no other
operation writes any of them, reset clears all three, and every step keeps `pwr = busy = (slp = LIGHT)`. R44 is the spec's
own derivation from R33 to R35, R96, R105 and R106. -/
def Obligations.PowerBitsMoveTogether : Prop :=
  (∀ (i : Instr) (s t : State), exec i s = .next t →
    (i.opcode = .ovfSaa → t.pwr = true ∧ t.busy = true ∧ t.slp = .light) ∧
    (i.kind = .adc → t.pwr = false ∧ t.busy = false ∧ t.slp = .deep) ∧
    (i.opcode ≠ .ovfSaa → i.kind ≠ .adc → t.pwr = s.pwr ∧ t.busy = s.busy ∧ t.slp = s.slp)) ∧
  (State.reset.pwr = false ∧ State.reset.busy = false ∧ State.reset.slp = .deep) ∧
  (∀ s t : State, PowerFollowsConversion s → step s = .next t → PowerFollowsConversion t)

/-- R50, field by field: which operations can change each field of the block, the parameters included, which none does. A
guarded stray completion does not arm, so it changes `st`, `mode`, `cur`, `tx` and `clk` of no state. R50 is the spec's own
derivation. -/
def Obligations.EachFieldHasItsWriters : Prop :=
  ∀ (i : Instr) (s t : State), exec i s = .next t →
    (t.st ≠ s.st ∨ t.mode ≠ s.mode →
      i.opcode ≠ .ovfSaa ∧ (i.opcode = .adcDoneStray → s.cfg.adcDoneGuarded = false)) ∧
    (t.cur ≠ s.cur ∨ t.tx ≠ s.tx →
      i.opcode = .ovfRabAck ∨ i.opcode = .adcDoneSaa ∨
        (i.opcode = .adcDoneStray ∧ s.cfg.adcDoneGuarded = false)) ∧
    (t.rb ≠ s.rb → i.opcode = .adcDoneSaa ∨ i.opcode = .adcDoneStray) ∧
    (t.clk = true → s.clk = true ∨ i.opcode = .ovfSaa) ∧
    (s.clk = true → t.clk = false →
      i.kind = .start ∨ i.opcode = .adcDoneSaa ∨ (i.opcode = .adcDoneStray ∧ s.cfg.adcDoneGuarded = false)) ∧
    (t.pwr ≠ s.pwr ∨ t.busy ≠ s.busy ∨ t.slp ≠ s.slp →
      i.opcode = .ovfSaa ∨ i.opcode = .adcDoneSaa ∨ i.opcode = .adcDoneStray) ∧
    t.cfg = s.cfg

/-- R89, R90, R145, W5 (b): a START is serviced at once from every state whatsoever: reserved states, held clock and
running conversion included, and nothing but `st`, `mode` and `clk` of the block is written. That it is enabled in a stall
is the spec's own choice (D17, D30; notes/assumptions/14). -/
def Obligations.StartIsServicedInEveryState : Prop :=
  ∀ (s : State) (rest : List Input), s.inbox = .event (.start false) :: rest →
    step s = .next
      { s with st := .ra, mode := .rxByte, clk := false, label := Label.quiet, inbox := rest }

/-- R93, "STOP always wins": an overflow that reports a STOP returns to WaitingForStart from every state, whatever the
received unit says (a match or a NACK included), and leaves the sampler, the cursor and the result. -/
def Obligations.StopOnAnyOverflowWins : Prop :=
  ∀ (s : State) (rx : Byte) (rest : List Input), ModeFollowsState s → s.clk = false →
    s.inbox = .event (.ovf true rx) :: rest →
    step s = .next
      { s with st := .wfs, mode := .idle, clk := false, label := ⟨false, .stop⟩, inbox := rest }

/-- R101, R144, R148: while the clock is held, an overflow, with or without a STOP, has no step; whatever is offered, a
step that happens is a START's or a completion's, and it frees the clock. R101 is the spec's own derivation; the refusal's
name is notes/assumptions/4. -/
def Obligations.StallEndsByCompletionOrStartOnly : Prop :=
  ∀ s : State, Inv s → s.clk = true →
    (∀ (b : Bool) (rx : Byte) (rest : List Input), s.inbox = .event (.ovf b rx) :: rest →
      step s = .refused (.eventNotEnabled .ovf)) ∧
    (∀ (x : Input) (rest : List Input) (t : State), s.inbox = x :: rest → step s = .next t →
      t.clk = false ∧ (dwKind (x.asWord s) = some .start ∨ dwKind (x.asWord s) = some .adc))

/-- R105, R56, R143: the completion of a stall releases the clock and presents the high byte of its own reading on the
data line, whatever the result buffer and the cursor held before. The cursor's
reset is the spec's own choice (D11; notes/assumptions/14). -/
def Obligations.CompletionEndsTheStall : Prop :=
  ∀ (s : State) (v : Reading) (rest : List Input), Inv s → s.clk = true → v.toNat < 2 ^ s.cfg.adcBits →
    s.inbox = .event (.adc v) :: rest →
    ∃ t, step s = .next t ∧ t.st = .sb ∧ t.clk = false ∧ t.cur = 0 ∧
      t.rb = ⟨some (v.extractLsb' 8 8), some (v.extractLsb' 0 8)⟩ ∧ sdaOut t = .ok (.data (v.extractLsb' 8 8)) ∧
      t.pwr = false ∧ t.slp = .deep ∧ t.inbox = rest

/-- R102: an overflow's received unit is never stored. Two overflows that select the same row lead to the same outcome,
whatever bits they carried. R102 rests on the spec's own decisions D15 and D16. -/
def Obligations.ReceivedUnitsAreNotStored : Prop :=
  ∀ (s : State) (b : Bool) (x y : Byte) (rest : List Input), ModeFollowsState s →
    (selectedInstr s (.ovf b x)).opcode = (selectedInstr s (.ovf b y)).opcode →
    step { s with inbox := .event (.ovf b x) :: rest } = step { s with inbox := .event (.ovf b y) :: rest }

/-- R95, R100, W1: after an address byte that does not match, the block takes no part in the transaction however many
units it counts: it waits for a START with the bus released, nothing of the block but `st`, `mode` and `clk` has changed, the
data line is released and no conversion has started. That units are counted while idle, and that their overflows complete
without change, is the spec's own choice (R92, R100, D14, N18; notes/assumptions/14). -/
def Obligations.ForeignTransactionIsIgnored : Prop :=
  ∀ (s : State) (x : Byte) (units : List Byte) (rest : List Input), ModeFollowsState s → s.st = .ra →
    s.clk = false → x ≠ s.cfg.addrMatchByte →
    s.inbox = offer (.ovf false x :: units.map (Event.ovf false)) ++ rest →
    ∃ t, runSteps (units.length + 1) s = .next t ∧
      SameBlock { s with st := .wfs, mode := .idle, clk := false } t ∧ t.inbox = rest ∧
      sdaOut t = .ok .released ∧ pulsesIn (units.length + 1) s = 0

/-- A whole read (R88, R103, R110, W2, W3, W4), from every state in which no conversion runs, for every legal reading and
every number `k` of acknowledged bytes: the run completes, starts exactly one conversion, sends `k + 1` bytes, the high
byte, the low byte and then zeros, and ends waiting for a START with the bus released, the sampler off and the core in
DEEP. The value of `cur` between transactions is the spec's own reading (D11, C6, R151; notes/assumptions/14). -/
def Obligations.WholeReadSendsResultThenZeros : Prop :=
  ∀ (s : State) (v : Reading) (k : Nat) (rest : List Input), s.busy = false → s.pwr = false → s.slp = .deep →
    v.toNat < 2 ^ s.cfg.adcBits → s.inbox = offer (transaction s.cfg.addrMatchByte v k) ++ rest →
    (∃ t, runSteps (6 + 2 * k) s = .next t ∧ t.st = .wfs ∧ t.mode = .idle ∧ t.clk = false ∧ t.pwr = false ∧
      t.busy = false ∧ t.slp = .deep ∧ t.cur.val = min k 2 ∧
      t.rb = ⟨some (v.extractLsb' 8 8), some (v.extractLsb' 0 8)⟩ ∧ t.label.recovery = .nack ∧ t.inbox = rest) ∧
    pulsesIn (6 + 2 * k) s = 1 ∧
    bytesSent (6 + 2 * k) s =
      (v.extractLsb' 8 8 :: v.extractLsb' 0 8 :: List.replicate k (0 : Byte)).take (k + 1)
end

