-- ==== Sys2Proof/Laws/Encoding.lean ====
section
/-! SUPPORT. The dispatch word's fields read back what its assembly was given, and a word is the assembly of its own
fields (spec/30_encoding.md R73, R76); which row an assembled word selects depends on its low seven bits only (R77). -/

namespace Sys2Proof

@[simp] theorem ofCode_state_code (st : ProtocolState) : ProtocolState.ofCode st.code = st := by cases st <;> rfl

theorem state_code_ofCode (b : BitVec 3) : (ProtocolState.ofCode b).code = b := by revert b; decide

@[simp] theorem ofCode_kind_code (k : EventKind) : EventKind.ofCode k.code = some k := by cases k <;> rfl

theorem kind_code_of_ofCode {b : BitVec 2} {k : EventKind} (h : EventKind.ofCode b = some k) : k.code = b := by
  revert b k
  intro b
  revert b
  decide +revert

@[simp] theorem dwState_packDW (data : Byte) (c s : Bool) (k : EventKind) (st : ProtocolState) :
    dwState (packDW data c s k st) = st := by
  have h : (packDW data c s k st).extractLsb' 0 3 = st.code := by
    unfold packDW
    ext j hj
    interval_cases j <;> simp
  simp [dwState, h]

@[simp] theorem dwKind_packDW (data : Byte) (c s : Bool) (k : EventKind) (st : ProtocolState) :
    dwKind (packDW data c s k st) = some k := by
  have h : (packDW data c s k st).extractLsb' 3 2 = k.code := by
    unfold packDW
    ext j hj
    interval_cases j <;> simp
  simp [dwKind, h]

@[simp] theorem dwStop_packDW (data : Byte) (c s : Bool) (k : EventKind) (st : ProtocolState) :
    dwStop (packDW data c s k st) = s := by
  simp [dwStop, packDW]

@[simp] theorem dwCond_packDW (data : Byte) (c s : Bool) (k : EventKind) (st : ProtocolState) :
    dwCond (packDW data c s k st) = c := by
  simp [dwCond, packDW]

@[simp] theorem dwReserved_packDW (data : Byte) (c s : Bool) (k : EventKind) (st : ProtocolState) :
    dwReserved (packDW data c s k st) = false := by
  simp [dwReserved, packDW]

@[simp] theorem dwData_packDW (data : Byte) (c s : Bool) (k : EventKind) (st : ProtocolState) :
    dwData (packDW data c s k st) = data := by
  unfold dwData packDW
  ext j hj
  interval_cases j <;> simp

/-- A word with `r` = 0 and a legal kind is the assembly of its own fields (R76). -/
theorem packDW_of_fields {w : DispatchWord} {k : EventKind} (hr : dwReserved w = false) (hk : dwKind w = some k) :
    packDW (dwData w) (dwCond w) (dwStop w) k (dwState w) = w := by
  have hc : k.code = w.extractLsb' 3 2 := kind_code_of_ofCode hk
  unfold packDW dwState
  rw [hc, state_code_ofCode]
  simp only [dwReserved] at hr
  ext j hj
  interval_cases j <;> simp_all [dwData, dwCond, dwStop]

/-- A mask below bit 7 does not see `data`. -/
theorem packDW_and_of_low (data : Byte) (c s : Bool) (k : EventKind) (st : ProtocolState) {m : DispatchWord}
    (hm : m &&& 0x7F#16 = m) : packDW data c s k st &&& m = packDW 0 c s k st &&& m := by
  rw [← hm]
  ext j hj
  interval_cases j <;> simp [packDW]

/-- The row a word selects does not depend on its `data` field. -/
theorem selectRow_packDW (data : Byte) (c s : Bool) (k : EventKind) (st : ProtocolState) :
    selectRow (packDW data c s k st) = selectRow (packDW 0 c s k st) := by
  simp only [selectRow, opcodeRows, List.find?, Row.fits]
  rw [packDW_and_of_low data c s k st (m := 0x0038#16) (by decide),
    packDW_and_of_low data c s k st (m := 0x007F#16) (by decide),
    packDW_and_of_low data c s k st (m := 0x003F#16) (by decide)]

end Sys2Proof
end

