-- ==== Sys2Proof/Laws/State.lean ====
section
/-! SUPPORT. One lemma per field per update, true by rfl: what each primitive of Flags.lean, Power.lean and Ops.lean writes
and what it leaves. Later proofs rewrite with these instead of unfolding a record update. -/

namespace Sys2Proof.Machine

/-! ### holdClock -/

@[simp] theorem holdClock_cfg (s : State) : (holdClock s).cfg = s.cfg := rfl
@[simp] theorem holdClock_st (s : State) : (holdClock s).st = s.st := rfl
@[simp] theorem holdClock_cur (s : State) : (holdClock s).cur = s.cur := rfl
@[simp] theorem holdClock_rb (s : State) : (holdClock s).rb = s.rb := rfl
@[simp] theorem holdClock_tx (s : State) : (holdClock s).tx = s.tx := rfl
@[simp] theorem holdClock_mode (s : State) : (holdClock s).mode = s.mode := rfl
@[simp] theorem holdClock_clk (s : State) : (holdClock s).clk = true := rfl
@[simp] theorem holdClock_pwr (s : State) : (holdClock s).pwr = s.pwr := rfl
@[simp] theorem holdClock_busy (s : State) : (holdClock s).busy = s.busy := rfl
@[simp] theorem holdClock_slp (s : State) : (holdClock s).slp = s.slp := rfl
@[simp] theorem holdClock_label (s : State) : (holdClock s).label = s.label := rfl
@[simp] theorem holdClock_inbox (s : State) : (holdClock s).inbox = s.inbox := rfl

/-! ### stretch -/

@[simp] theorem stretch_cfg (s : State) : (stretch s).cfg = s.cfg := rfl
@[simp] theorem stretch_st (s : State) : (stretch s).st = s.st := rfl
@[simp] theorem stretch_cur (s : State) : (stretch s).cur = s.cur := rfl
@[simp] theorem stretch_rb (s : State) : (stretch s).rb = s.rb := rfl
@[simp] theorem stretch_tx (s : State) : (stretch s).tx = s.tx := rfl
@[simp] theorem stretch_mode (s : State) : (stretch s).mode = s.mode := rfl
@[simp] theorem stretch_clk (s : State) : (stretch s).clk = s.clk := rfl
@[simp] theorem stretch_pwr (s : State) : (stretch s).pwr = s.pwr := rfl
@[simp] theorem stretch_busy (s : State) : (stretch s).busy = s.busy := rfl
@[simp] theorem stretch_slp (s : State) : (stretch s).slp = s.slp := rfl
@[simp] theorem stretch_label (s : State) : (stretch s).label = s.label := rfl
@[simp] theorem stretch_inbox (s : State) : (stretch s).inbox = s.inbox := rfl

/-! ### adcPower -/

@[simp] theorem adcPower_cfg (on : Bool) (s : State) : (adcPower on s).cfg = s.cfg := rfl
@[simp] theorem adcPower_st (on : Bool) (s : State) : (adcPower on s).st = s.st := rfl
@[simp] theorem adcPower_cur (on : Bool) (s : State) : (adcPower on s).cur = s.cur := rfl
@[simp] theorem adcPower_rb (on : Bool) (s : State) : (adcPower on s).rb = s.rb := rfl
@[simp] theorem adcPower_tx (on : Bool) (s : State) : (adcPower on s).tx = s.tx := rfl
@[simp] theorem adcPower_mode (on : Bool) (s : State) : (adcPower on s).mode = s.mode := rfl
@[simp] theorem adcPower_clk (on : Bool) (s : State) : (adcPower on s).clk = s.clk := rfl
@[simp] theorem adcPower_pwr (on : Bool) (s : State) : (adcPower on s).pwr = on := rfl
@[simp] theorem adcPower_busy (on : Bool) (s : State) : (adcPower on s).busy = s.busy := rfl
@[simp] theorem adcPower_slp (on : Bool) (s : State) : (adcPower on s).slp = s.slp := rfl
@[simp] theorem adcPower_label (on : Bool) (s : State) : (adcPower on s).label = s.label := rfl
@[simp] theorem adcPower_inbox (on : Bool) (s : State) : (adcPower on s).inbox = s.inbox := rfl

/-! ### setSleep -/

@[simp] theorem setSleep_cfg (m : SleepMode) (s : State) : (setSleep m s).cfg = s.cfg := rfl
@[simp] theorem setSleep_st (m : SleepMode) (s : State) : (setSleep m s).st = s.st := rfl
@[simp] theorem setSleep_cur (m : SleepMode) (s : State) : (setSleep m s).cur = s.cur := rfl
@[simp] theorem setSleep_rb (m : SleepMode) (s : State) : (setSleep m s).rb = s.rb := rfl
@[simp] theorem setSleep_tx (m : SleepMode) (s : State) : (setSleep m s).tx = s.tx := rfl
@[simp] theorem setSleep_mode (m : SleepMode) (s : State) : (setSleep m s).mode = s.mode := rfl
@[simp] theorem setSleep_clk (m : SleepMode) (s : State) : (setSleep m s).clk = s.clk := rfl
@[simp] theorem setSleep_pwr (m : SleepMode) (s : State) : (setSleep m s).pwr = s.pwr := rfl
@[simp] theorem setSleep_busy (m : SleepMode) (s : State) : (setSleep m s).busy = s.busy := rfl
@[simp] theorem setSleep_slp (m : SleepMode) (s : State) : (setSleep m s).slp = m := rfl
@[simp] theorem setSleep_label (m : SleepMode) (s : State) : (setSleep m s).label = s.label := rfl
@[simp] theorem setSleep_inbox (m : SleepMode) (s : State) : (setSleep m s).inbox = s.inbox := rfl

/-! ### conversionDone -/

@[simp] theorem conversionDone_cfg (s : State) : (conversionDone s).cfg = s.cfg := rfl
@[simp] theorem conversionDone_st (s : State) : (conversionDone s).st = s.st := rfl
@[simp] theorem conversionDone_cur (s : State) : (conversionDone s).cur = s.cur := rfl
@[simp] theorem conversionDone_rb (s : State) : (conversionDone s).rb = s.rb := rfl
@[simp] theorem conversionDone_tx (s : State) : (conversionDone s).tx = s.tx := rfl
@[simp] theorem conversionDone_mode (s : State) : (conversionDone s).mode = s.mode := rfl
@[simp] theorem conversionDone_clk (s : State) : (conversionDone s).clk = s.clk := rfl
@[simp] theorem conversionDone_pwr (s : State) : (conversionDone s).pwr = s.pwr := rfl
@[simp] theorem conversionDone_busy (s : State) : (conversionDone s).busy = false := rfl
@[simp] theorem conversionDone_slp (s : State) : (conversionDone s).slp = s.slp := rfl
@[simp] theorem conversionDone_label (s : State) : (conversionDone s).label = s.label := rfl
@[simp] theorem conversionDone_inbox (s : State) : (conversionDone s).inbox = s.inbox := rfl

/-! ### clearLabel -/

@[simp] theorem clearLabel_cfg (s : State) : (clearLabel s).cfg = s.cfg := rfl
@[simp] theorem clearLabel_st (s : State) : (clearLabel s).st = s.st := rfl
@[simp] theorem clearLabel_cur (s : State) : (clearLabel s).cur = s.cur := rfl
@[simp] theorem clearLabel_rb (s : State) : (clearLabel s).rb = s.rb := rfl
@[simp] theorem clearLabel_tx (s : State) : (clearLabel s).tx = s.tx := rfl
@[simp] theorem clearLabel_mode (s : State) : (clearLabel s).mode = s.mode := rfl
@[simp] theorem clearLabel_clk (s : State) : (clearLabel s).clk = s.clk := rfl
@[simp] theorem clearLabel_pwr (s : State) : (clearLabel s).pwr = s.pwr := rfl
@[simp] theorem clearLabel_busy (s : State) : (clearLabel s).busy = s.busy := rfl
@[simp] theorem clearLabel_slp (s : State) : (clearLabel s).slp = s.slp := rfl
@[simp] theorem clearLabel_label (s : State) : (clearLabel s).label = Label.quiet := rfl
@[simp] theorem clearLabel_inbox (s : State) : (clearLabel s).inbox = s.inbox := rfl

/-! ### recover -/

@[simp] theorem recover_cfg (r : Recovery) (s : State) : (recover r s).cfg = s.cfg := rfl
@[simp] theorem recover_st (r : Recovery) (s : State) : (recover r s).st = s.st := rfl
@[simp] theorem recover_cur (r : Recovery) (s : State) : (recover r s).cur = s.cur := rfl
@[simp] theorem recover_rb (r : Recovery) (s : State) : (recover r s).rb = s.rb := rfl
@[simp] theorem recover_tx (r : Recovery) (s : State) : (recover r s).tx = s.tx := rfl
@[simp] theorem recover_mode (r : Recovery) (s : State) : (recover r s).mode = s.mode := rfl
@[simp] theorem recover_clk (r : Recovery) (s : State) : (recover r s).clk = s.clk := rfl
@[simp] theorem recover_pwr (r : Recovery) (s : State) : (recover r s).pwr = s.pwr := rfl
@[simp] theorem recover_busy (r : Recovery) (s : State) : (recover r s).busy = s.busy := rfl
@[simp] theorem recover_slp (r : Recovery) (s : State) : (recover r s).slp = s.slp := rfl
@[simp] theorem recover_label (r : Recovery) (s : State) : (recover r s).label = { s.label with recovery := r } := rfl
@[simp] theorem recover_inbox (r : Recovery) (s : State) : (recover r s).inbox = s.inbox := rfl

/-! ### setState -/

@[simp] theorem setState_cfg (x : ProtocolState) (s : State) : (setState x s).cfg = s.cfg := rfl
@[simp] theorem setState_st (x : ProtocolState) (s : State) : (setState x s).st = x := rfl
@[simp] theorem setState_cur (x : ProtocolState) (s : State) : (setState x s).cur = s.cur := rfl
@[simp] theorem setState_rb (x : ProtocolState) (s : State) : (setState x s).rb = s.rb := rfl
@[simp] theorem setState_tx (x : ProtocolState) (s : State) : (setState x s).tx = s.tx := rfl
@[simp] theorem setState_mode (x : ProtocolState) (s : State) : (setState x s).mode = s.mode := rfl
@[simp] theorem setState_clk (x : ProtocolState) (s : State) : (setState x s).clk = s.clk := rfl
@[simp] theorem setState_pwr (x : ProtocolState) (s : State) : (setState x s).pwr = s.pwr := rfl
@[simp] theorem setState_busy (x : ProtocolState) (s : State) : (setState x s).busy = s.busy := rfl
@[simp] theorem setState_slp (x : ProtocolState) (s : State) : (setState x s).slp = s.slp := rfl
@[simp] theorem setState_label (x : ProtocolState) (s : State) : (setState x s).label = s.label := rfl
@[simp] theorem setState_inbox (x : ProtocolState) (s : State) : (setState x s).inbox = s.inbox := rfl

/-! ### advanceCursor -/

@[simp] theorem advanceCursor_cfg (s : State) : (advanceCursor s).cfg = s.cfg := rfl
@[simp] theorem advanceCursor_st (s : State) : (advanceCursor s).st = s.st := rfl
@[simp] theorem advanceCursor_rb (s : State) : (advanceCursor s).rb = s.rb := rfl
@[simp] theorem advanceCursor_tx (s : State) : (advanceCursor s).tx = s.tx := rfl
@[simp] theorem advanceCursor_mode (s : State) : (advanceCursor s).mode = s.mode := rfl
@[simp] theorem advanceCursor_clk (s : State) : (advanceCursor s).clk = s.clk := rfl
@[simp] theorem advanceCursor_pwr (s : State) : (advanceCursor s).pwr = s.pwr := rfl
@[simp] theorem advanceCursor_busy (s : State) : (advanceCursor s).busy = s.busy := rfl
@[simp] theorem advanceCursor_slp (s : State) : (advanceCursor s).slp = s.slp := rfl
@[simp] theorem advanceCursor_label (s : State) : (advanceCursor s).label = s.label := rfl
@[simp] theorem advanceCursor_inbox (s : State) : (advanceCursor s).inbox = s.inbox := rfl

/-- The advanced cursor as a number: saturating at N (R98). -/
@[simp] theorem advanceCursor_cur_val (s : State) : (advanceCursor s).cur.val = min (s.cur.val + 1) 2 := rfl

/-! ### resetCursor -/

@[simp] theorem resetCursor_cfg (s : State) : (resetCursor s).cfg = s.cfg := rfl
@[simp] theorem resetCursor_st (s : State) : (resetCursor s).st = s.st := rfl
@[simp] theorem resetCursor_cur (s : State) : (resetCursor s).cur = 0 := rfl
@[simp] theorem resetCursor_rb (s : State) : (resetCursor s).rb = s.rb := rfl
@[simp] theorem resetCursor_tx (s : State) : (resetCursor s).tx = s.tx := rfl
@[simp] theorem resetCursor_mode (s : State) : (resetCursor s).mode = s.mode := rfl
@[simp] theorem resetCursor_clk (s : State) : (resetCursor s).clk = s.clk := rfl
@[simp] theorem resetCursor_pwr (s : State) : (resetCursor s).pwr = s.pwr := rfl
@[simp] theorem resetCursor_busy (s : State) : (resetCursor s).busy = s.busy := rfl
@[simp] theorem resetCursor_slp (s : State) : (resetCursor s).slp = s.slp := rfl
@[simp] theorem resetCursor_label (s : State) : (resetCursor s).label = s.label := rfl
@[simp] theorem resetCursor_inbox (s : State) : (resetCursor s).inbox = s.inbox := rfl

/-! ### captureResult -/

@[simp] theorem captureResult_cfg (v : Reading) (s : State) : (captureResult v s).cfg = s.cfg := rfl
@[simp] theorem captureResult_st (v : Reading) (s : State) : (captureResult v s).st = s.st := rfl
@[simp] theorem captureResult_cur (v : Reading) (s : State) : (captureResult v s).cur = s.cur := rfl
@[simp] theorem captureResult_rb (v : Reading) (s : State) : (captureResult v s).rb = ⟨some (highByte v), some (lowByte v)⟩ := rfl
@[simp] theorem captureResult_tx (v : Reading) (s : State) : (captureResult v s).tx = s.tx := rfl
@[simp] theorem captureResult_mode (v : Reading) (s : State) : (captureResult v s).mode = s.mode := rfl
@[simp] theorem captureResult_clk (v : Reading) (s : State) : (captureResult v s).clk = s.clk := rfl
@[simp] theorem captureResult_pwr (v : Reading) (s : State) : (captureResult v s).pwr = s.pwr := rfl
@[simp] theorem captureResult_busy (v : Reading) (s : State) : (captureResult v s).busy = s.busy := rfl
@[simp] theorem captureResult_slp (v : Reading) (s : State) : (captureResult v s).slp = s.slp := rfl
@[simp] theorem captureResult_label (v : Reading) (s : State) : (captureResult v s).label = s.label := rfl
@[simp] theorem captureResult_inbox (v : Reading) (s : State) : (captureResult v s).inbox = s.inbox := rfl

/-! ### releaseBus -/

@[simp] theorem releaseBus_cfg (s : State) : (releaseBus s).cfg = s.cfg := rfl
@[simp] theorem releaseBus_st (s : State) : (releaseBus s).st = s.st := rfl
@[simp] theorem releaseBus_cur (s : State) : (releaseBus s).cur = s.cur := rfl
@[simp] theorem releaseBus_rb (s : State) : (releaseBus s).rb = s.rb := rfl
@[simp] theorem releaseBus_tx (s : State) : (releaseBus s).tx = s.tx := rfl
@[simp] theorem releaseBus_mode (s : State) : (releaseBus s).mode = .idle := rfl
@[simp] theorem releaseBus_clk (s : State) : (releaseBus s).clk = false := rfl
@[simp] theorem releaseBus_pwr (s : State) : (releaseBus s).pwr = s.pwr := rfl
@[simp] theorem releaseBus_busy (s : State) : (releaseBus s).busy = s.busy := rfl
@[simp] theorem releaseBus_slp (s : State) : (releaseBus s).slp = s.slp := rfl
@[simp] theorem releaseBus_label (s : State) : (releaseBus s).label = s.label := rfl
@[simp] theorem releaseBus_inbox (s : State) : (releaseBus s).inbox = s.inbox := rfl

/-! ### armRxByte -/

@[simp] theorem armRxByte_cfg (s : State) : (armRxByte s).cfg = s.cfg := rfl
@[simp] theorem armRxByte_st (s : State) : (armRxByte s).st = s.st := rfl
@[simp] theorem armRxByte_cur (s : State) : (armRxByte s).cur = s.cur := rfl
@[simp] theorem armRxByte_rb (s : State) : (armRxByte s).rb = s.rb := rfl
@[simp] theorem armRxByte_tx (s : State) : (armRxByte s).tx = s.tx := rfl
@[simp] theorem armRxByte_mode (s : State) : (armRxByte s).mode = .rxByte := rfl
@[simp] theorem armRxByte_clk (s : State) : (armRxByte s).clk = false := rfl
@[simp] theorem armRxByte_pwr (s : State) : (armRxByte s).pwr = s.pwr := rfl
@[simp] theorem armRxByte_busy (s : State) : (armRxByte s).busy = s.busy := rfl
@[simp] theorem armRxByte_slp (s : State) : (armRxByte s).slp = s.slp := rfl
@[simp] theorem armRxByte_label (s : State) : (armRxByte s).label = s.label := rfl
@[simp] theorem armRxByte_inbox (s : State) : (armRxByte s).inbox = s.inbox := rfl

/-! ### armTxAck -/

@[simp] theorem armTxAck_cfg (s : State) : (armTxAck s).cfg = s.cfg := rfl
@[simp] theorem armTxAck_st (s : State) : (armTxAck s).st = s.st := rfl
@[simp] theorem armTxAck_cur (s : State) : (armTxAck s).cur = s.cur := rfl
@[simp] theorem armTxAck_rb (s : State) : (armTxAck s).rb = s.rb := rfl
@[simp] theorem armTxAck_tx (s : State) : (armTxAck s).tx = s.tx := rfl
@[simp] theorem armTxAck_mode (s : State) : (armTxAck s).mode = .txAck := rfl
@[simp] theorem armTxAck_clk (s : State) : (armTxAck s).clk = false := rfl
@[simp] theorem armTxAck_pwr (s : State) : (armTxAck s).pwr = s.pwr := rfl
@[simp] theorem armTxAck_busy (s : State) : (armTxAck s).busy = s.busy := rfl
@[simp] theorem armTxAck_slp (s : State) : (armTxAck s).slp = s.slp := rfl
@[simp] theorem armTxAck_label (s : State) : (armTxAck s).label = s.label := rfl
@[simp] theorem armTxAck_inbox (s : State) : (armTxAck s).inbox = s.inbox := rfl

/-! ### armTxByte -/

@[simp] theorem armTxByte_cfg (b : Byte) (s : State) : (armTxByte b s).cfg = s.cfg := rfl
@[simp] theorem armTxByte_st (b : Byte) (s : State) : (armTxByte b s).st = s.st := rfl
@[simp] theorem armTxByte_cur (b : Byte) (s : State) : (armTxByte b s).cur = s.cur := rfl
@[simp] theorem armTxByte_rb (b : Byte) (s : State) : (armTxByte b s).rb = s.rb := rfl
@[simp] theorem armTxByte_tx (b : Byte) (s : State) : (armTxByte b s).tx = some b := rfl
@[simp] theorem armTxByte_mode (b : Byte) (s : State) : (armTxByte b s).mode = .txByte := rfl
@[simp] theorem armTxByte_clk (b : Byte) (s : State) : (armTxByte b s).clk = false := rfl
@[simp] theorem armTxByte_pwr (b : Byte) (s : State) : (armTxByte b s).pwr = s.pwr := rfl
@[simp] theorem armTxByte_busy (b : Byte) (s : State) : (armTxByte b s).busy = s.busy := rfl
@[simp] theorem armTxByte_slp (b : Byte) (s : State) : (armTxByte b s).slp = s.slp := rfl
@[simp] theorem armTxByte_label (b : Byte) (s : State) : (armTxByte b s).label = s.label := rfl
@[simp] theorem armTxByte_inbox (b : Byte) (s : State) : (armTxByte b s).inbox = s.inbox := rfl

/-! ### armRxAck -/

@[simp] theorem armRxAck_cfg (s : State) : (armRxAck s).cfg = s.cfg := rfl
@[simp] theorem armRxAck_st (s : State) : (armRxAck s).st = s.st := rfl
@[simp] theorem armRxAck_cur (s : State) : (armRxAck s).cur = s.cur := rfl
@[simp] theorem armRxAck_rb (s : State) : (armRxAck s).rb = s.rb := rfl
@[simp] theorem armRxAck_tx (s : State) : (armRxAck s).tx = s.tx := rfl
@[simp] theorem armRxAck_mode (s : State) : (armRxAck s).mode = .rxAck := rfl
@[simp] theorem armRxAck_clk (s : State) : (armRxAck s).clk = false := rfl
@[simp] theorem armRxAck_pwr (s : State) : (armRxAck s).pwr = s.pwr := rfl
@[simp] theorem armRxAck_busy (s : State) : (armRxAck s).busy = s.busy := rfl
@[simp] theorem armRxAck_slp (s : State) : (armRxAck s).slp = s.slp := rfl
@[simp] theorem armRxAck_label (s : State) : (armRxAck s).label = s.label := rfl
@[simp] theorem armRxAck_inbox (s : State) : (armRxAck s).inbox = s.inbox := rfl

/-! ### idleAction -/

@[simp] theorem idleAction_eq (s : State) : idleAction s = s := rfl

/-! ### adcStart -/

@[simp] theorem adcStart_cfg (s : State) : (adcStart s).cfg = s.cfg := by
  unfold adcStart; split <;> rfl
@[simp] theorem adcStart_st (s : State) : (adcStart s).st = s.st := by
  unfold adcStart; split <;> rfl
@[simp] theorem adcStart_cur (s : State) : (adcStart s).cur = s.cur := by
  unfold adcStart; split <;> rfl
@[simp] theorem adcStart_rb (s : State) : (adcStart s).rb = s.rb := by
  unfold adcStart; split <;> rfl
@[simp] theorem adcStart_tx (s : State) : (adcStart s).tx = s.tx := by
  unfold adcStart; split <;> rfl
@[simp] theorem adcStart_mode (s : State) : (adcStart s).mode = s.mode := by
  unfold adcStart; split <;> rfl
@[simp] theorem adcStart_clk (s : State) : (adcStart s).clk = s.clk := by
  unfold adcStart; split <;> rfl
@[simp] theorem adcStart_pwr (s : State) : (adcStart s).pwr = s.pwr := by
  unfold adcStart; split <;> rfl
@[simp] theorem adcStart_busy (s : State) : (adcStart s).busy = true := by
  unfold adcStart; split <;> simp_all
@[simp] theorem adcStart_slp (s : State) : (adcStart s).slp = s.slp := by
  unfold adcStart; split <;> rfl
/-- The pulse is emitted exactly when the conversion is begun (R20, R22). -/
@[simp] theorem adcStart_label (s : State) :
    (adcStart s).label = { s.label with adcStart := s.label.adcStart || !s.busy } := by
  unfold adcStart; split <;> simp_all
@[simp] theorem adcStart_inbox (s : State) : (adcStart s).inbox = s.inbox := by
  unfold adcStart; split <;> rfl

end Sys2Proof.Machine
end

