-- ==== Sys2Proof/Laws/Ops.lean ====
section
/-! SUPPORT. One lemma per shared operation, saying once everything it can do: enabling and entry (spec/60_exceptions.md
R121, R122), `ByteAt` (spec/00_scope.md R19), the byte send, the fallback to idle, a completion's guard, and one step. -/

namespace Sys2Proof.Machine

/-! ### Enabling -/

@[simp] theorem enabled_start (s : State) : enabled .start s = true := by
  cases h : s.slp <;> simp [enabled, wake, sourceReady, h]

@[simp] theorem enabled_ovf (s : State) : enabled .ovf s = !s.clk := by
  cases h : s.slp <;> simp [enabled, wake, sourceReady, h]

theorem enabled_adc_iff (s : State) : enabled .adc s = true ↔ s.busy = true ∧ s.slp = .light := by
  cases h : s.slp <;> simp [enabled, wake, sourceReady, h]

/-! ### Entry -/

@[simp] theorem entryEffect_start (s : State) : entryEffect .start s = s := rfl
@[simp] theorem entryEffect_ovf (s : State) : entryEffect .ovf s = holdClock s := rfl
@[simp] theorem entryEffect_adc (s : State) : entryEffect .adc s = s := rfl

theorem takeEvent_of_enabled {k : EventKind} {s : State} (handler : State → Answer) (h : enabled k s = true) :
    takeEvent k s handler = handler (entryEffect k (clearLabel s)) := if_pos h

theorem takeEvent_of_not_enabled {k : EventKind} {s : State} (handler : State → Answer) (h : enabled k s = false) :
    takeEvent k s handler = .refused (.eventNotEnabled k) := by
  simp [takeEvent, h]

/-- An entry that answers a next state was enabled, and its handler answered that state. -/
theorem takeEvent_next {k : EventKind} {s t : State} {handler : State → Answer}
    (h : takeEvent k s handler = .next t) :
    enabled k s = true ∧ handler (entryEffect k (clearLabel s)) = .next t := by
  unfold takeEvent at h
  split at h
  · exact ⟨‹_›, h⟩
  · cases h

/-- An entry that faults was enabled, and its handler faulted. -/
theorem takeEvent_fault {k : EventKind} {s : State} {r : Fault} {handler : State → Answer}
    (h : takeEvent k s handler = .fault r) :
    enabled k s = true ∧ handler (entryEffect k (clearLabel s)) = .fault r := by
  unfold takeEvent at h
  split at h
  · exact ⟨‹_›, h⟩
  · cases h

/-- A completion that answers a next state carried a legal draw, ran in LIGHT, and its handler answered that state. -/
theorem takeCompletion_next {v : Reading} {s t : State} {handler : State → Answer}
    (h : takeCompletion v s handler = .next t) :
    legalDraw s.cfg v = true ∧ (s.busy = true ∧ s.slp = .light) ∧ handler (clearLabel s) = .next t := by
  unfold takeCompletion at h
  split at h
  · obtain ⟨he, hh⟩ := takeEvent_next h
    exact ⟨‹_›, (enabled_adc_iff s).1 he, hh⟩
  · cases h

/-- A completion that faults is its handler's fault. -/
theorem takeCompletion_fault {v : Reading} {s : State} {r : Fault} {handler : State → Answer}
    (h : takeCompletion v s handler = .fault r) : handler (clearLabel s) = .fault r := by
  unfold takeCompletion at h
  split at h
  · exact (takeEvent_fault h).2
  · cases h

/-! ### Returning to idle -/

@[simp] theorem returnToIdle_eq (s : State) : returnToIdle s = .next s := rfl

/-! ### ByteAt and the byte send -/

theorem byteAt_of_ge (s : State) {k : Nat} (h : 2 ≤ k) : byteAt s k = .ok 0 := by
  simp [byteAt, numResultBytes, Nat.not_lt.2 h]

/-- `ByteAt` errs exactly on an unwritten entry below N. -/
theorem byteAt_error_iff (s : State) (k : Nat) (r : Fault) :
    byteAt s k = .error r ↔ k < 2 ∧ s.rb.entry k = none ∧ r = .unwrittenResult := by
  unfold byteAt numResultBytes
  split
  · cases s.rb.entry k <;> simp_all [eq_comm]
  · simp_all

/-- A byte send that answers a next state read the byte at the cursor, armed it and moved to SendingBytes. -/
theorem sendCursorByte_next {s t : State} (h : sendCursorByte s = .next t) :
    ∃ b, byteAt s s.cur.val = .ok b ∧ t = setState .sb (armTxByte b s) := by
  unfold sendCursorByte at h
  split at h
  · rename_i b hb
    exact ⟨b, hb, by cases h; rfl⟩
  · cases h

theorem sendCursorByte_of_ok {s : State} {b : Byte} (h : byteAt s s.cur.val = .ok b) :
    sendCursorByte s = .next (setState .sb (armTxByte b s)) := by
  simp [sendCursorByte, h]

/-- A byte send faults only by reading an unwritten byte. -/
theorem sendCursorByte_fault {s : State} {r : Fault} (h : sendCursorByte s = .fault r) :
    byteAt s s.cur.val = .error r := by
  unfold sendCursorByte at h
  split at h
  · cases h
  · rename_i e he
    cases h
    exact he

/-! ### The fallback, the capture and the reset of the cursor, written out -/

theorem fallBackToIdle_eq (r : Recovery) (s : State) :
    fallBackToIdle r s =
      { s with st := .wfs, mode := .idle, clk := false, label := { s.label with recovery := r } } := rfl

theorem closeConversion_eq (v : Reading) (s : State) :
    closeConversion v s =
      { s with rb := ⟨some (highByte v), some (lowByte v)⟩, pwr := false, busy := false } := rfl

/-- After the capture, the byte at cursor 0 is the high byte of the reading (spec/70_reset_and_hazards.md R143). -/
theorem byteAt_zero_of_capture (v : Reading) (s : State) (h : s.rb = ⟨some (highByte v), some (lowByte v)⟩) :
    byteAt s 0 = .ok (highByte v) := by
  simp [byteAt, numResultBytes, h, ResultBytes.entry]

/-! ### One step -/

/-- With nothing offered there is no step (spec/43_power_idle.md R113). -/
theorem step_of_nothing_offered {s : State} (h : s.inbox = []) : step s = .refused .noEventOffered := by
  simp [step, h]

/-- Everything a step that answers a next state can be: one offered item whose word decodes to an instruction of the
machine's state, executed with the offer taken. -/
theorem step_next {s t : State} (h : step s = .next t) :
    ∃ x rest i, s.inbox = x :: rest ∧ decode s.cfg (x.asWord s) x.operand = .ok i ∧ i.state = s.st ∧
      exec i { s with inbox := rest } = .next t := by
  unfold step at h
  split at h
  · cases h
  · rename_i x rest hb
    split at h
    · cases h
    · rename_i i hd
      split at h
      · exact ⟨x, rest, i, hb, hd, ‹_›, h⟩
      · cases h

/-- A step that faults executed an instruction of the machine's state that faulted. -/
theorem step_fault {s : State} {r : Fault} (h : step s = .fault r) :
    ∃ x rest i, s.inbox = x :: rest ∧ decode s.cfg (x.asWord s) x.operand = .ok i ∧ i.state = s.st ∧
      exec i { s with inbox := rest } = .fault r := by
  unfold step at h
  split at h
  · cases h
  · rename_i x rest hb
    split at h
    · cases h
    · rename_i i hd
      split at h
      · exact ⟨x, rest, i, hb, hd, ‹_›, h⟩
      · cases h

end Sys2Proof.Machine
end

