-- ==== Sys2Proof/Laws/PerInstr.lean ====
section
/-! SUPPORT. What is said of every instruction, one lemma per constructor: the word of a well-formed instruction selects
the row the instruction stands in (spec/30_encoding.md R77). -/

/-- The encoded word of a well-formed instruction selects its own row, first match in table order. -/
def Sys2Proof.Laws.EncodeSelects.Statement (i : Sys2Proof.Instr) : Prop :=
  ∀ p : Sys2Proof.Config, i.wellFormed p = true → Sys2Proof.selectRow (Sys2Proof.encode p i) = some i.opcode

namespace Sys2Proof.Laws.EncodeSelects

theorem startStopped (st : ProtocolState) : Statement (.startStopped st) := by
  intro p _; cases st <;> (simp only [encode]; rfl)

theorem startGo (st : ProtocolState) : Statement (.startGo st) := by
  intro p _; cases st <;> (simp only [encode]; rfl)

theorem ovfStop (st : ProtocolState) (data : Byte) : Statement (.ovfStop st data) := by
  intro p _
  simp only [encode]
  rw [selectRow_packDW]
  cases condBit p .ovf st data <;> cases st <;> rfl

theorem ovfRaMatch (rx : Byte) : Statement (.ovfRaMatch rx) := by
  intro p _
  simp only [encode]
  rw [selectRow_packDW]
  rfl

theorem ovfRaNomatch (rx : Byte) : Statement (.ovfRaNomatch rx) := by
  intro p _
  simp only [encode]
  rw [selectRow_packDW]
  rfl

theorem ovfSaa : Statement .ovfSaa := by
  intro p _; simp only [encode]; rfl

theorem ovfSb : Statement .ovfSb := by
  intro p _; simp only [encode]; rfl

theorem ovfRabAck : Statement .ovfRabAck := by
  intro p _; simp only [encode]; rfl

theorem ovfRabNack : Statement .ovfRabNack := by
  intro p _; simp only [encode]; rfl

theorem ovfDefault (st : ProtocolState) : Statement (.ovfDefault st) := by
  intro p h
  cases st <;> first | (simp only [encode]; rfl) | simp [Instr.wellFormed, hasNoOvfRow] at h

theorem adcDoneSaa (v : Reading) : Statement (.adcDoneSaa v) := by
  intro p _; simp only [encode]; rfl

theorem adcDoneStray (st : ProtocolState) (v : Reading) : Statement (.adcDoneStray st v) := by
  intro p h
  cases st <;> first | (simp only [encode]; rfl) | simp [Instr.wellFormed] at h

end Sys2Proof.Laws.EncodeSelects
end

