-- ==== Sys2Proof/Laws/Runs.lean ====
section
/-! SUPPORT. Runs, one step at a time: `runSteps` is the host's `Core.run` of this machine, and what a run of `k + 1` steps
answers, starts and sends is what its first step and the run from there do. -/

namespace Sys2Proof.Machine

theorem runSteps_of_next {s t : State} (h : step s = .next t) (k : Nat) : runSteps (k + 1) s = runSteps k t := by
  simp only [runSteps, h]

theorem pulsesIn_of_next {s t : State} (h : step s = .next t) (k : Nat) :
    pulsesIn (k + 1) s = (if t.label.adcStart then 1 else 0) + pulsesIn k t := by
  simp only [pulsesIn, h]

theorem bytesSent_of_next {s t : State} (h : step s = .next t) (k : Nat) :
    bytesSent (k + 1) s = (if s.st == .sb && t.st == .rab then s.tx.toList else []) ++ bytesSent k t := by
  simp only [bytesSent, h]

theorem core_run_eq_runSteps (k : Nat) : ∀ s : State, Sys2Proof.core.run k s = runSteps k s := by
  induction k with
  | zero => intro s; rfl
  | succ k ih =>
    intro s
    refine (Host.Core.run.eq_2 Sys2Proof.core s k).trans ?_
    cases h : step s with
    | next t =>
      rw [show Sys2Proof.core.step s = .next t from h, runSteps_of_next h]
      exact ih t
    | fault r =>
      rw [show Sys2Proof.core.step s = .fault r from h]
      simp only [runSteps, h]
      rfl
    | refused r =>
      rw [show Sys2Proof.core.step s = .refused r from h]
      simp only [runSteps, h]
      rfl

/-- A run in two parts. -/
theorem runSteps_add (j k : Nat) {s t : State} (h : runSteps j s = .next t) : runSteps (j + k) s = runSteps k t := by
  induction j generalizing s with
  | zero => cases h; simp
  | succ j ih =>
    rw [Nat.succ_add]
    cases hs : step s with
    | next u =>
      rw [runSteps_of_next hs] at h
      rw [runSteps_of_next hs]
      exact ih h
    | fault r => simp only [runSteps, hs] at h; cases h
    | refused r => simp only [runSteps, hs] at h; cases h

/-- A run of `k + 1` steps that answers a next state begins with a step that does. -/
theorem runSteps_succ_next {k : Nat} {s t : State} (h : runSteps (k + 1) s = .next t) :
    ∃ u, step s = .next u ∧ runSteps k u = .next t := by
  cases hs : step s with
  | next u => exact ⟨u, rfl, (runSteps_of_next hs k).symm.trans h⟩
  | fault r => simp [runSteps, hs] at h
  | refused r => simp [runSteps, hs] at h

/-- What every step keeps holds at every state a run reaches. -/
theorem runSteps_keeps {P : State → Prop} (keep : ∀ s t, P s → step s = .next t → P t) (k : Nat) :
    ∀ s t, P s → runSteps k s = .next t → P t := by
  induction k with
  | zero => intro s t hs h; cases h; exact hs
  | succ k ih =>
    intro s t hs h
    obtain ⟨u, hu, hk⟩ := runSteps_succ_next h
    exact ih u t (keep s u hs hu) hk

/-- A step from a state with nothing offered is none, so a run there has no step. -/
theorem runSteps_of_nothing_offered {s : State} (h : s.inbox = []) (k : Nat) :
    runSteps (k + 1) s = .refused .noEventOffered := by
  simp only [runSteps, step_of_nothing_offered h]

end Sys2Proof.Machine
end

