-- ==== Sys2Proof/Tests/Slice0.lean ====
section
/-! SUPPORT. The model's own tests. Every expected word, row and state is taken from spec/95_test_vectors.md (the vector's
number stands beside it) or from the rule named, never from a run of the model. The witnesses at the end show a state and
operands that meet all hypotheses of a statement of Certificates/Slice0/Obligations.lean. -/

namespace Sys2Proof.Tests

open Sys2Proof.Machine

/-! ## Helpers -/

/-- The next state of an answer. -/
def nextOf : Answer → Option State
  | .next t => some t
  | .fault _ => none
  | .refused _ => none

/-- The refusal of an answer. -/
def refusalOf : Answer → Option Refusal
  | .next _ => none
  | .fault _ => none
  | .refused r => some r

/-- The fault of an answer. -/
def faultOf : Answer → Option Fault
  | .next _ => none
  | .fault r => some r
  | .refused _ => none

/-- The reason the decoder gives for refusing a word at the default parameters. -/
def whyRefused (w : DispatchWord) : Option DecodeError :=
  match decode Config.standard w 0 with
  | .ok _ => none
  | .error e => some e

/-- The instruction of a word at the default parameters. -/
def instrAt (w : DispatchWord) (v : Reading) : Option Instr := (decode Config.standard w v).toOption

/-- The tuple of spec/95 section 1, at the default parameters, with nothing offered. -/
def block (st : ProtocolState) (cur : Fin 4) (rb : ResultBytes) (tx : Option Byte) (mode : XcvrMode)
    (clk pwr busy : Bool) (slp : SleepMode) : State :=
  ⟨Config.standard, st, cur, rb, tx, mode, clk, pwr, busy, slp, Label.quiet, []⟩

/-- A written result. -/
def bytes (hi lo : Byte) : ResultBytes := ⟨some hi, some lo⟩

/-- An unwritten result. -/
def noBytes : ResultBytes := ⟨none, none⟩

/-- `s` with one event offered. -/
def offering (e : Event) (s : State) : State := { s with inbox := [.event e] }

/-- `s` with one hand-built word offered. -/
def offeringWord (w : DispatchWord) (v : Reading) (s : State) : State := { s with inbox := [.word w v] }

/-- `s` with an output label. -/
def labelled (pulse : Bool) (r : Recovery) (s : State) : State := { s with label := ⟨pulse, r⟩ }

/-- `s` with `ADC_DONE_GUARDED` set. -/
def guarded (s : State) : State := { s with cfg := { s.cfg with adcDoneGuarded := true } }

/-- `s` with a 10-bit sampler. -/
def tenBits (s : State) : State := { s with cfg := { s.cfg with adcBits := 10 } }

/-- The parameters with another compared byte. -/
def slipped (b : Byte) : Config := { Config.standard with addrMatchByte := b }

/-- Waiting for the address byte (P-b). -/
def addressing : State := block .ra 0 noBytes none .rxByte false false false .deep

/-- The address ACK bit armed (P-c). -/
def acking : State := block .saa 0 noBytes none .txAck false false false .deep

/-- The stall state `T` after an over-read (A4). -/
def stall : State := block .saa 2 (bytes 0x11#8 0x22#8) (some 0#8) .txAck true true true .light

/-- Sending byte 0 (P-e). -/
def sending : State := block .sb 0 (bytes 0x02#8 0x37#8) (some 0x02#8) .txByte false false false .deep

/-- Waiting for the master's answer after byte `cur` (P-f, O10 to O14). -/
def answering (cur : Fin 4) : State := block .rab cur (bytes 0x02#8 0x37#8) (some 0x02#8) .rxAck false false false .deep

/-- A conversion running outside SendingAddressAck (P-g, A7). -/
def strayRunning : State := block .ra 0 noBytes none .rxByte false true true .light

/-- A9's state. -/
def strayIdle : State := block .wfs 1 (bytes 0x02#8 0x37#8) (some 0x37#8) .idle false true true .light

/-! ## Well-formed instructions: one ill-formed term for each check -/

theorem test_ovfStop_data_outside_ra : (Instr.ovfStop .sb 1#8).wellFormed Config.standard = false := by decide
theorem test_ovfStop_data_in_rab : (Instr.ovfStop .rab 2#8).wellFormed Config.standard = false := by decide
theorem test_ovfRaMatch_other_byte : (Instr.ovfRaMatch 0x82#8).wellFormed Config.standard = false := by decide
theorem test_ovfRaNomatch_match_byte : (Instr.ovfRaNomatch 0x83#8).wellFormed Config.standard = false := by decide
theorem test_ovfDefault_state_with_a_row : (Instr.ovfDefault .sb).wellFormed Config.standard = false := by decide
theorem test_adcDoneStray_in_saa : (Instr.adcDoneStray .saa 0#16).wellFormed Config.standard = false := by decide

/-! ## Decoding: words of spec/95 section 3, written out from R73 -/

/-- E1 to E8, E38, E39. -/
theorem test_decode_start_words :
    [0x0000#16, 0x0001#16, 0x0002#16, 0x0003#16, 0x0004#16, 0x0005#16].map (instrAt · 0) =
        [some (.startGo .wfs), some (.startGo .ra), some (.startGo .saa), some (.startGo .sb), some (.startGo .rab),
          some (.startGo .reserved5)] ∧
      [0x0020#16, 0x0022#16, 0x0024#16, 0x0027#16].map (instrAt · 0) =
        [some (.startStopped .wfs), some (.startStopped .saa), some (.startStopped .rab),
          some (.startStopped .reserved7)] := by decide

/-- E9 to E16: the received byte stands in bits 15..8, the match in bit 6. -/
theorem test_decode_address_words :
    [0x8349#16, 0x8209#16, 0x0009#16, 0xFF09#16, 0x4109#16, 0x0309#16, 0xC309#16, 0x8109#16].map (instrAt · 0) =
      [some (.ovfRaMatch 0x83#8), some (.ovfRaNomatch 0x82#8), some (.ovfRaNomatch 0#8), some (.ovfRaNomatch 0xFF#8),
        some (.ovfRaNomatch 0x41#8), some (.ovfRaNomatch 0x03#8), some (.ovfRaNomatch 0xC3#8),
        some (.ovfRaNomatch 0x81#8)] := by decide

/-- E17, E18, E20, E22, E25, E26, E28, E41: a STOP takes row 3 over a match and over a NACK. -/
theorem test_decode_stop_words :
    [0x8369#16, 0x8229#16, 0x002A#16, 0x002B#16, 0x002C#16, 0x016C#16, 0x0028#16, 0x002E#16].map (instrAt · 0) =
      [some (.ovfStop .ra 0x83#8), some (.ovfStop .ra 0x82#8), some (.ovfStop .saa 0#8), some (.ovfStop .sb 0#8),
        some (.ovfStop .rab 0#8), some (.ovfStop .rab 1#8), some (.ovfStop .wfs 0#8),
        some (.ovfStop .reserved6 0#8)] := by decide

/-- E19, E21, E23, E24, E27, E40. -/
theorem test_decode_overflow_words :
    [0x000A#16, 0x000B#16, 0x000C#16, 0x014C#16, 0x0008#16, 0x000D#16].map (instrAt · 0) =
      [some .ovfSaa, some .ovfSb, some .ovfRabAck, some .ovfRabNack, some (.ovfDefault .wfs),
        some (.ovfDefault .reserved5)] := by decide

/-- E29 to E33, E42: `v` travels beside the word. -/
theorem test_decode_completion_words :
    [0x0010#16, 0x0011#16, 0x0012#16, 0x0013#16, 0x0014#16, 0x0016#16].map (instrAt · 0x0237#16) =
      [some (.adcDoneStray .wfs 0x0237#16), some (.adcDoneStray .ra 0x0237#16), some (.adcDoneSaa 0x0237#16),
        some (.adcDoneStray .sb 0x0237#16), some (.adcDoneStray .rab 0x0237#16),
        some (.adcDoneStray .reserved6 0x0237#16)] := by decide

/-- E34 to E37: the slipped compared byte. -/
theorem test_decode_slipped_address :
    (decode (slipped 0) 0x0049#16 0).toOption = some (.ovfRaMatch 0#8) ∧
      (decode (slipped 0) 0x8309#16 0).toOption = some (.ovfRaNomatch 0x83#8) ∧
      (decode (slipped 1) 0x0149#16 0).toOption = some (.ovfRaMatch 1#8) ∧
      (decode (slipped 1) 0x8309#16 0).toOption = some (.ovfRaNomatch 0x83#8) := by decide

/-- E43 to E49. -/
theorem test_refused_start_and_completion_words :
    [0x0018#16, 0x0080#16, 0x0040#16, 0x1200#16, 0x0032#16, 0x0052#16, 0x0112#16].map whyRefused =
      [some .reservedKind, some .reservedBit, some .startCond, some .startData, some .adcStop, some .adcCond,
        some .adcData] := by decide

/-- E50 to E57. -/
theorem test_refused_overflow_words :
    [0x8309#16, 0x0049#16, 0x010B#16, 0x004B#16, 0x020C#16, 0x004C#16, 0x010C#16, 0x0108#16].map whyRefused =
      [some .ovfCond, some .ovfCond, some .ovfData, some .ovfCond, some .ovfData, some .ovfCond, some .ovfCond,
        some .ovfData] := by decide

/-- Encoding gives the words of E9, E12, E18, E24, E26, E40, E33 and E7. -/
theorem test_encode_words :
    [Instr.ovfRaMatch 0x83#8, .ovfRaNomatch 0xFF#8, .ovfStop .ra 0x82#8, .ovfRabNack, .ovfStop .rab 1#8,
        .ovfDefault .reserved5, .adcDoneStray .rab 7#16, .startStopped .saa].map (encode Config.standard) =
      [0x8349#16, 0xFF09#16, 0x8229#16, 0x014C#16, 0x016C#16, 0x000D#16, 0x0014#16, 0x0022#16] := by decide

/-- The opcode table's numbering: a 16-bit row, and a row whose bits 31..16 are the reading. -/
theorem test_decodeTableWord :
    decodeTableWord 16 0x8349 = some (.ovfRaMatch 0x83#8) ∧ decodeTableWord 16 0x0012 = some (.adcDoneSaa 0#16) ∧
      decodeTableWord 32 0x02370012 = some (.adcDoneSaa 0x0237#16) ∧ decodeTableWord 16 0x0018 = none := by decide

/-! ## The dispatch word of an event in a state -/

/-- E3, E7, E31: a START's and a completion's word carry no payload. -/
theorem test_word_of_start_and_completion :
    [Event.start false, .start true, .adc 0x0237#16].map (dispatchWord acking) = [0x0002#16, 0x0022#16, 0x0012#16] := by
  decide

/-- E9, E10, E17 in RX_BYTE. -/
theorem test_word_of_received_byte :
    [Event.ovf false 0x83#8, .ovf false 0x82#8, .ovf true 0x83#8].map (dispatchWord addressing) =
      [0x8349#16, 0x8209#16, 0x8369#16] := by decide

/-- E23, E24, E26 in RX_ACK, where only bit 0 is sampled; E21 in TX_BYTE, where nothing is. -/
theorem test_word_of_answer_and_sent_byte :
    [Event.ovf false 0#8, .ovf false 1#8, .ovf true 1#8, .ovf false 0xFE#8].map (dispatchWord (answering 0)) =
        [0x000C#16, 0x014C#16, 0x016C#16, 0x000C#16] ∧
      dispatchWord sending (.ovf false 0xFF#8) = 0x000B#16 := by decide

/-! ## One step of each operation -/

/-- F5: `cur` and `tx` are kept. -/
theorem test_start_go_mid_read :
    nextOf (step (offering (.start false)
        (block .sb 1 (bytes 0x02#8 0x37#8) (some 0x37#8) .txByte false false false .deep))) =
      some (block .ra 1 (bytes 0x02#8 0x37#8) (some 0x37#8) .rxByte false false false .deep) := by decide

/-- F10: a START during the stall; the conversion goes on. -/
theorem test_start_go_in_stall :
    nextOf (step (offering (.start false) stall)) =
      some (block .ra 2 (bytes 0x11#8 0x22#8) (some 0#8) .rxByte false true true .light) := by decide

/-- F2: nothing changes but the label (R127). -/
theorem test_start_stopped_in_reset :
    nextOf (step (offering (.start true) State.reset)) = some (labelled false .stop State.reset) := by decide

/-- F11. -/
theorem test_start_stopped_in_stall :
    nextOf (step (offering (.start true) stall)) =
      some (labelled false .stop (block .wfs 2 (bytes 0x11#8 0x22#8) (some 0#8) .idle false true true .light)) := by
  decide

/-- O4: a STOP wins over a match. -/
theorem test_ovf_stop_over_match :
    nextOf (step (offering (.ovf true 0x83#8) addressing)) = some (labelled false .stop State.reset) := by decide

/-- O15 with O14's cursor: a STOP wins over a NACK and the cursor is kept. -/
theorem test_ovf_stop_over_nack :
    nextOf (step (offering (.ovf true 1#8) (answering 2))) =
      some (labelled false .stop
        (block .wfs 2 (bytes 0x02#8 0x37#8) (some 0x02#8) .idle false false false .deep)) := by decide

/-- O1. -/
theorem test_ovf_ra_match : nextOf (step (offering (.ovf false 0x83#8) addressing)) = some acking := by decide

/-- O2 (write direction) and O3. -/
theorem test_ovf_ra_nomatch :
    [0x82#8, 0#8].map (fun x => nextOf (step (offering (.ovf false x) addressing))) =
      [some (labelled false .addrMismatch State.reset), some (labelled false .addrMismatch State.reset)] := by decide

/-- O5: the pulse. -/
theorem test_ovf_saa :
    nextOf (step (offering plainUnit acking)) =
      some (labelled true .none (block .saa 0 noBytes none .txAck true true true .light)) := by decide

/-- O7: a conversion is already running, so there is no pulse. -/
theorem test_ovf_saa_while_busy :
    nextOf (step (offering plainUnit (block .saa 0 noBytes none .txAck false true true .light))) =
      some (block .saa 0 noBytes none .txAck true true true .light) := by decide

/-- O8. -/
theorem test_ovf_sb : nextOf (step (offering plainUnit sending)) = some (answering 0) := by decide

/-- O10. -/
theorem test_ovf_rab_ack_low_byte :
    nextOf (step (offering (answerUnit true) (answering 0))) =
      some (block .sb 1 (bytes 0x02#8 0x37#8) (some 0x37#8) .txByte false false false .deep) := by decide

/-- O11 and O12: padding, and the cursor saturates. -/
theorem test_ovf_rab_ack_padding :
    [answering 1, answering 2].map (fun s => nextOf (step (offering (answerUnit true) s))) =
      List.replicate 2
        (some (block .sb 2 (bytes 0x02#8 0x37#8) (some 0#8) .txByte false false false .deep)) := by decide

/-- O14. -/
theorem test_ovf_rab_nack :
    nextOf (step (offering (answerUnit false) (answering 2))) =
      some (labelled false .nack
        (block .wfs 2 (bytes 0x02#8 0x37#8) (some 0x02#8) .idle false false false .deep)) := by decide

/-- O17. -/
theorem test_ovf_default :
    nextOf (step (offering plainUnit State.reset)) = some (labelled false .defensive State.reset) := by decide

/-- R100, R81: a reserved state falls back to WaitingForStart. -/
theorem test_ovf_default_reserved_state :
    nextOf (step (offering plainUnit { State.reset with st := .reserved6 })) =
      some (labelled false .defensive State.reset) := by decide

/-- A4: the stall ends, and the cursor an over-read left is reset. -/
theorem test_adc_done_saa :
    nextOf (step (offering (.adc 0x1234#16) stall)) =
      some (block .sb 0 (bytes 0x12#8 0x34#8) (some 0x12#8) .txByte false false false .deep) := by decide

/-- A5 and A6 with a 10-bit sampler. -/
theorem test_adc_done_saa_ten_bits :
    nextOf (step (offering (.adc 0x03FF#16) (tenBits stall))) =
        some (tenBits (block .sb 0 (bytes 0x03#8 0xFF#8) (some 0x03#8) .txByte false false false .deep)) ∧
      refusalOf (step (offering (.adc 0x0400#16) (tenBits stall))) = some .illegalDraw := by decide

/-- A7 and A9, unguarded. -/
theorem test_adc_done_stray_unguarded :
    nextOf (step (offering (.adc 0x0102#16) strayRunning)) =
        some (block .sb 0 (bytes 0x01#8 0x02#8) (some 0x01#8) .txByte false false false .deep) ∧
      nextOf (step (offering (.adc 0x0A0B#16) strayIdle)) =
        some (block .sb 0 (bytes 0x0A#8 0x0B#8) (some 0x0A#8) .txByte false false false .deep) := by decide

/-- A8 and A10, guarded. -/
theorem test_adc_done_stray_guarded :
    nextOf (step (offering (.adc 0x0102#16) (guarded strayRunning))) =
        some (guarded (block .ra 0 (bytes 0x01#8 0x02#8) none .rxByte false false false .deep)) ∧
      nextOf (step (offering (.adc 0x0A0B#16) (guarded strayIdle))) =
        some (guarded (block .wfs 1 (bytes 0x0A#8 0x0B#8) (some 0x37#8) .idle false false false .deep)) := by decide

/-- R113, R121: with nothing offered there is no step. -/
theorem test_nothing_offered : refusalOf (step State.reset) = some .noEventOffered := by decide

/-- A11 and the corner case of section 5: no ADC in DEEP, no OVF while the clock is held. -/
theorem test_events_not_enabled :
    refusalOf (step (offering (.adc 1#16) State.reset)) = some (.eventNotEnabled .adc) ∧
      refusalOf (step (offering plainUnit stall)) = some (.eventNotEnabled .ovf) := by decide

/-- R19: `ByteAt` of an unwritten byte. -/
theorem test_unwritten_byte_faults :
    faultOf (exec .ovfRabAck (block .rab 0 noBytes none .rxAck false false false .deep)) =
      some .unwrittenResult := by decide

/-- R80: a hand-built word that is not canonical is refused; one of another state is refused too (log 10). -/
theorem test_hand_built_words :
    refusalOf (step (offeringWord 0x0018#16 0 State.reset)) = some (.nonCanonicalDW .reservedKind) ∧
      refusalOf (step (offeringWord 0x000D#16 0 State.reset)) = some .wordNotOfState ∧
      nextOf (step (offeringWord 0x0012#16 0x0237#16 stall)) =
        some (block .sb 0 (bytes 0x02#8 0x37#8) (some 0x02#8) .txByte false false false .deep) := by decide

/-! ## Outputs, enabling, boot -/

/-- P-a, P-c, P-d, P-e, P-f. -/
theorem test_outputs :
    [State.reset, acking, stall, sending, answering 0].map (fun s => (sdaOut s).toOption) =
        [some .released, some .low, some .released, some (.data 0x02#8), some .released] ∧
      [State.reset, acking, stall, sending, strayRunning].map (fun s => (sclHeldLow s, adcPowerEn s, sleepSel s)) =
        [(false, false, .deep), (false, false, .deep), (true, true, .light), (false, false, .deep),
          (false, true, .light)] := by decide

/-- P-a, P-d, P-g: which kinds are enabled. -/
theorem test_enabled_events :
    [State.reset, stall, strayRunning].map (fun s => (enabled .start s, enabled .ovf s, enabled .adc s)) =
      [(true, true, false), (true, false, true), (true, true, true)] := by decide

/-- R49, R138: boot from the stall. -/
theorem test_boot : boot stall = State.reset := by decide

/-- The host's placing of a word: OVF.SB as the first instruction after reset. -/
theorem test_withFetchWord :
    ((nextOf (step (State.reset.withFetchWord 16 0x000B))).map fun t => (t.st, t.mode)) = some (.rab, .rxAck) ∧
      ((nextOf (step (State.reset.withFetchWord 32 0x02370012))).map fun t => (t.st, t.tx)) =
        some (.sb, some 0x02#8) := by decide

/-! ## Trace text and pseudo-events -/

/-- R83: the lines of E9, E24, E6 and E31 with their words. -/
theorem test_trace_lines :
    traceLine addressing (.ovf false 0x83#8) = "OVF x=83; DW=0x8349" ∧
      traceLine (answering 0) (.ovf true 1#8) = "OVF/P b=1; DW=0x016C" ∧
      traceLine State.reset (.start true) = "START/P; DW=0x0020" ∧
      traceLine stall (.adc 0x0237#16) = "ADC v=0237; DW=0x0012" := by decide

/-- R83: reading lines, with and without the word after `;`. -/
theorem test_read_trace_lines :
    ["START", "OVF x=82", "OVF/P b=1; DW=0x016C", "ADC v=03FF", "OVF"].map (fun l => readEvent l.toList) =
        [some (.start false), some (.ovf false 0x82#8), some (.ovf true 1#8), some (.adc 0x03FF#16),
          some plainUnit] ∧
      readEvent "STOP".toList = none := by decide

/-- R88 with W7's reading and `k` = 1: the events of program P1. -/
theorem test_transaction_events :
    (Pseudo.txn 0x83#8 0x0237#16 1).events =
      [.start false, .ovf false 0x83#8, .ovf false 0#8, .adc 0x0237#16, .ovf false 0#8, .ovf false 0#8, .ovf false 0#8,
        .ovf false 1#8] := by decide

/-- A program's events as a master's moves. -/
def asMoves (es : List Event) : List BusMove := es.map BusMove.event

/-- P4: a STOP at the answer to byte 0, reported by that unit's overflow, then a fresh read. -/
def p4 : List BusMove :=
  asMoves [.start false, .ovf false 0x83#8, plainUnit, .adc 0x0102#16, plainUnit] ++ [.stop] ++
    asMoves [.ovf true 0#8, .start false, .ovf false 0x83#8, plainUnit, .adc 0x0103#16, plainUnit, .ovf false 1#8]

/-- P6: a START and STOP, an idle unit, then a STOP in the address byte. -/
def p6 : List BusMove := asMoves [.start true, plainUnit, .start false] ++ [.stop, .event (.ovf true 0x83#8)]

/-- P1, P2, P4, P6 are contract runs (spec/95 section 8) and so is P7; P5, a START in the stall, is none. -/
theorem test_contract_programs :
    [asMoves (transaction 0x83#8 0x0237#16 1),
        asMoves [.start false, .ovf false 0x82#8, plainUnit, plainUnit] ++ [.stop, .event (.ovf true 0#8)], p4, p6,
        asMoves [.start false, .ovf false 0x83#8, plainUnit, .adc 0x1234#16, plainUnit, .ovf false 0#8, .start false,
          .ovf false 0x83#8, plainUnit, .adc 0x1235#16, plainUnit, .ovf false 1#8],
        asMoves [.start false, .ovf false 0x83#8, plainUnit, .start false, .adc 0x0A0B#16]].map
      (fun ms => followsShape Config.standard .idle ms && stopReportsHonest false ms) =
      [true, true, true, true, true, false] := by decide

/-- P-a to P-f: which kinds are contract-enabled, START, OVF, ADC in that order. -/
theorem test_contract_enabled_events :
    [State.reset, addressing, acking, stall, sending, answering 0].map (fun s =>
      [Event.start false, plainUnit, .adc 0#16].map fun e => (nextPhase s.cfg (busPhase s) (.event e)).isSome) =
      [[true, true, false], [true, true, false], [true, true, false], [false, false, true], [true, true, false],
        [true, true, false]] := by decide

/-! ## Witnesses: the hypotheses of the statements are met together -/

theorem witness_DecodeOfEncodeIsTheInstruction :
    (Instr.ovfRaNomatch 0x82#8).wellFormed Config.standard = true ∧ (Instr.ovfStop .rab 1#8).wellFormed (slipped 0) = true := by
  decide

theorem witness_EncodeOfDecodeIsTheWord :
    decode Config.standard 0x0013#16 0x0237#16 = .ok (.adcDoneStray .sb 0x0237#16) ∧
      (Instr.adcDoneStray .sb 0x0237#16).kind = .adc := by decide

theorem witness_NonCanonicalWordsAreRefused :
    (offeringWord 0x0049#16 0 State.reset).inbox = [.word 0x0049#16 0] ∧
      ¬ Canonical (offeringWord 0x0049#16 0 State.reset).cfg 0x0049#16 ∧ ModeFollowsState addressing := by decide

theorem witness_CanonicalWordSelectsTheRowOfItsFields : Canonical Config.standard 0x8349#16 := by decide

theorem witness_EveryCanonicalWordIsAnEventsWord :
    ModeFollowsState addressing ∧ Canonical addressing.cfg 0x8229#16 ∧ dwState 0x8229#16 = addressing.st := by decide

theorem witness_OnlyTheReadHeaderIsAcknowledged :
    (offering (.ovf false 0x83#8) addressing).cfg.addrMatchByte = readHeader 0x41#7 ∧
      ModeFollowsState (offering (.ovf false 0x83#8) addressing) ∧ (offering (.ovf false 0x83#8) addressing).st = .ra ∧
      (offering (.ovf false 0x83#8) addressing).clk = false ∧
      (offering (.ovf false 0x83#8) addressing).inbox = [.event (.ovf false 0x83#8)] := by decide

theorem witness_StepRunsTheDecodedInstruction_word :
    (offeringWord 0x0012#16 5#16 stall).inbox = [.word 0x0012#16 5#16] ∧
      decode stall.cfg 0x0012#16 5#16 = .ok (.adcDoneSaa 5#16) ∧ (Instr.adcDoneSaa 5#16).state = stall.st := by decide

theorem witness_StepRunsTheDecodedInstruction_event :
    (offering (.ovf false 0x82#8) addressing).inbox = [.event (.ovf false 0x82#8)] ∧
      decode (offering (.ovf false 0x82#8) addressing).cfg
        (dispatchWord (offering (.ovf false 0x82#8) addressing) (.ovf false 0x82#8)) (Event.ovf false 0x82#8).reading =
        .ok (.ovfRaNomatch 0x82#8) := by decide

theorem witness_SleepsWhileNothingIsOffered : stall.inbox = [] := by decide

theorem witness_EventRunsItsTransition :
    ModeFollowsState (offering (answerUnit false) (answering 3)) ∧
      (offering (answerUnit false) (answering 3)).inbox = [.event (answerUnit false)] := by decide

theorem witness_EveryStepTakesAnEnabledEvent :
    step (offeringWord 0x000A#16 0 acking) =
      .next (labelled true .none (block .saa 0 noBytes none .txAck true true true .light)) := by rfl

theorem witness_StepKeepsParametersAndTakesOneOffer :
    step (offering plainUnit acking) = .next (labelled true .none (block .saa 0 noBytes none .txAck true true true .light)) := by
  rfl

theorem witness_StagedWordRunsNext :
    decode State.reset.cfg 0x0013#16 0xFFFF#16 = .ok (.adcDoneStray .sb 0xFFFF#16) ∧
      legalDraw State.reset.cfg (Instr.adcDoneStray .sb 0xFFFF#16).reading = true ∧ armOf (dwState 0x0013#16) ≠ none := by
  decide

/-- With `witness_reset_invariants`, for the clause on `Inv`. -/
theorem witness_reset_invariants : Inv State.reset := by
  constructor <;> decide

theorem witness_stall_invariants : Inv stall := by
  constructor <;> decide

theorem witness_StartGoArmsTheAddressByte :
    Canonical Config.standard 0x0007#16 ∧ 0x0007#16 &&& 0x0038#16 = 0x0000#16 := by decide

theorem witness_StartStoppedReleasesTheBus :
    (Canonical Config.standard 0x0022#16 ∧ 0x0022#16 &&& 0x0038#16 = 0x0020#16) ∧
      (State.reset.st = .wfs ∧ State.reset.mode = .idle ∧ State.reset.clk = false) := by decide

theorem witness_StartStoppedReleasesTheBus_next :
    exec (.startStopped .wfs) State.reset = .next (labelled false .stop State.reset) := by rfl

theorem witness_FallbackOverflowsReturnToIdle : addressing.clk = false := by decide

theorem witness_AddressMatchArmsTheAckBit :
    Canonical Config.standard 0x8349#16 ∧ 0x8349#16 &&& 0x007F#16 = 0x0049#16 ∧ addressing.clk = false := by decide

theorem witness_AckBitEndHoldsClockAndStartsConversion : acking.clk = false ∧ acking.busy = false := by decide

theorem witness_AckBitEndHoldsClockAndStartsConversion_while_busy :
    strayRunning.clk = false ∧ strayRunning.busy = true := by decide

theorem witness_SentByteArmsTheAnswerBit :
    Canonical Config.standard 0x000B#16 ∧ 0x000B#16 &&& 0x003F#16 = 0x000B#16 ∧ sending.clk = false := by decide

theorem witness_SentByteRowAndWrites : sending.clk = false := by decide

theorem witness_MasterAckRowAndWrites :
    [answering 0, answering 2].all (fun s => !s.clk && decide (s.cur.val ≤ 2) && s.rb.lo == some 0x37#8) = true := by decide

theorem witness_MasterAckArmsTheNextByte_word :
    Canonical Config.standard 0x000C#16 ∧ 0x000C#16 &&& 0x007F#16 = 0x000C#16 := by decide

theorem witness_MasterAckArmsTheNextByte_low :
    (answering 0).clk = false ∧ (answering 0).cur.val = 0 ∧ (answering 0).rb.lo = some 0x37#8 := by decide

theorem witness_MasterAckArmsTheNextByte_padding :
    (answering 1).clk = false ∧ 1 ≤ (answering 1).cur.val ∧ (answering 3).clk = false ∧ 1 ≤ (answering 3).cur.val := by
  decide

theorem witness_MasterAckArmsTheNextByte_fault :
    addressing.clk = false ∧ addressing.cur.val = 0 ∧ addressing.rb.lo = none := by decide

theorem witness_CompletionCapturesAndArmsTheHighByte :
    stall.busy = true ∧ stall.slp = .light ∧ (0xFFFF#16).toNat < 2 ^ stall.cfg.adcBits := by decide

theorem witness_StrayCompletionClosesThePowerBracket :
    (strayRunning.busy = true ∧ strayRunning.slp = .light ∧ (0#16).toNat < 2 ^ strayRunning.cfg.adcBits ∧
        strayRunning.cfg.adcDoneGuarded = false) ∧
      ((guarded strayRunning).busy = true ∧ (guarded strayRunning).slp = .light ∧
        (0#16).toNat < 2 ^ (guarded strayRunning).cfg.adcBits ∧ (guarded strayRunning).cfg.adcDoneGuarded = true) := by
  decide

theorem witness_ResultIsStoredAndSentHighByteFirst :
    stall.busy = true ∧ stall.slp = .light ∧ (0x0237#16).toNat < 2 ^ stall.cfg.adcBits := by decide

theorem witness_EventHasNoStepExactlyWhenNotEnabled :
    (Instr.adcDoneSaa 0x03FF#16).reading.toNat < 2 ^ (tenBits stall).cfg.adcBits := by decide

theorem witness_ReadingAboveResolutionHasNoStep : 2 ^ (tenBits stall).cfg.adcBits ≤ (0x0400#16).toNat := by decide

theorem witness_ByteAtReadsOrPads :
    sending.rb.hi = some 0x02#8 ∧ sending.rb.lo = some 0x37#8 ∧ State.reset.rb.hi = none ∧ State.reset.rb.lo = none := by
  decide

theorem witness_DataLineFollowsTheArmedUnit :
    stall.clk = true ∧ (State.reset.clk = false ∧ State.reset.mode = .idle) ∧
      (addressing.clk = false ∧ addressing.mode = .rxByte) ∧ ((answering 0).clk = false ∧ (answering 0).mode = .rxAck) ∧
      (acking.clk = false ∧ acking.mode = .txAck) ∧
      (sending.clk = false ∧ sending.mode = .txByte ∧ sending.tx = some 0x02#8) := by decide

theorem witness_EveryStepKeepsTheInvariants :
    Inv (offering (.start false) stall) ∧
      step (offering (.start false) stall) =
        .next (block .ra 2 (bytes 0x11#8 0x22#8) (some 0#8) .rxByte false true true .light) := by
  refine ⟨?_, rfl⟩
  constructor <;> decide

theorem witness_ConversionStaysInStallUnderContract :
    ConversionOnlyInStall (offering (.adc 7#16) stall) ∧ NoStartDuringStall (offering (.adc 7#16) stall) ∧
      step (offering (.adc 7#16) stall) =
        .next (block .sb 0 (bytes 0#8 7#8) (some 0#8) .txByte false false false .deep) := by
  refine ⟨by decide, by decide, rfl⟩

theorem witness_NoRunReadsAnUnwrittenByte :
    Inv (offering plainUnit sending) ∧ runSteps 1 (offering plainUnit sending) = .next (answering 0) := by
  refine ⟨?_, rfl⟩
  constructor <;> decide

/-- A read with an early NACK (k = 0), as a master's moves. -/
def earlyNack : List BusMove := asMoves (transaction 0x83#8 0x0237#16 0)

/-- The reset state with `earlyNack` offered. -/
def earlyNackStart : State := { State.reset with inbox := offer (seenEvents earlyNack) }

theorem earlyNack_no_start_in_stall : ∀ k t, runSteps k earlyNackStart = .next t → NoStartDuringStall t := by
  intro k t h
  rcases k with _ | _ | _ | _ | _ | _ | _ | k <;> cases h <;> decide

theorem earlyNack_conversions_complete : ∀ k t, runSteps k earlyNackStart = .next t → t.busy = true →
    ∃ m u, runSteps m t = .next u ∧ u.busy = false := by
  intro k t h hb
  rcases k with _ | _ | _ | _ | _ | _ | _ | k <;> cases h <;> first | (exact absurd hb (by decide)) | exact ⟨1, _, rfl, rfl⟩

/-- A contract run that reads the device, from a state that meets all six invariants. -/
theorem witness_ContractRunsMeetAllSixInvariants :
    ContractRun earlyNack earlyNackStart ∧ Inv earlyNackStart ∧ ConversionOnlyInStall earlyNackStart := by
  refine ⟨⟨rfl, earlyNack_no_start_in_stall, by decide, by decide, earlyNack_conversions_complete⟩, ?_, by decide⟩
  constructor <;> decide

theorem witness_ContractRunsMeetAllSixInvariants_step :
    runSteps 1 earlyNackStart =
      .next { addressing with inbox := offer (seenEvents earlyNack).tail } := by rfl

/-- From the stall, with the rest of a read and a further START. -/
theorem witness_TransactionShapeIsServedToTheEnd :
    let moves := asMoves [.adc 0x0237#16, plainUnit, .ovf false 1#8]
    let s : State := { stall with inbox := offer (seenEvents moves) ++ [.event (.start false)] }
    Inv s ∧ ConversionOnlyInStall s ∧ s.inbox = offer (seenEvents moves) ++ [.event (.start false)] ∧
      followsShape s.cfg (busPhase s) moves = true ∧ 1 < (seenEvents moves).length ∧
      (nextOf (runSteps 1 s)).isSome = true := by
  refine ⟨?_, by decide, rfl, by decide, by decide, by decide⟩
  constructor <;> decide

theorem witness_PowerBitsMoveTogether :
    exec .ovfSaa acking = .next (labelled true .none (block .saa 0 noBytes none .txAck true true true .light)) ∧
      exec (.adcDoneSaa 0x0237#16) stall =
        .next (block .sb 0 (bytes 0x02#8 0x37#8) (some 0x02#8) .txByte false false false .deep) ∧
      exec .ovfSb sending = .next (answering 0) ∧ PowerFollowsConversion stall := by
  refine ⟨rfl, rfl, rfl, by decide⟩

theorem witness_EachFieldHasItsWriters :
    exec .ovfRabAck (answering 0) =
        .next (block .sb 1 (bytes 0x02#8 0x37#8) (some 0x37#8) .txByte false false false .deep) ∧
      exec (.adcDoneSaa 0x1234#16) stall =
        .next (block .sb 0 (bytes 0x12#8 0x34#8) (some 0x12#8) .txByte false false false .deep) ∧
      exec .ovfSaa acking = .next (labelled true .none (block .saa 0 noBytes none .txAck true true true .light)) := by
  exact ⟨rfl, rfl, rfl⟩

theorem witness_StartIsServicedInEveryState :
    (offering (.start false) stall).inbox = [.event (.start false)] := by decide

theorem witness_StopOnAnyOverflowWins :
    ModeFollowsState (offering (.ovf true 1#8) (answering 0)) ∧ (offering (.ovf true 1#8) (answering 0)).clk = false ∧
      (offering (.ovf true 1#8) (answering 0)).inbox = [.event (.ovf true 1#8)] := by decide

theorem witness_StallEndsByCompletionOrStartOnly_overflow :
    Inv (offering plainUnit stall) ∧ (offering plainUnit stall).clk = true ∧
      (offering plainUnit stall).inbox = [.event plainUnit] := by
  refine ⟨?_, rfl, rfl⟩
  constructor <;> decide

theorem witness_StallEndsByCompletionOrStartOnly_next :
    Inv (offering (.adc 7#16) stall) ∧ (offering (.adc 7#16) stall).clk = true ∧
      (offering (.adc 7#16) stall).inbox = [.event (.adc 7#16)] ∧
      step (offering (.adc 7#16) stall) =
        .next (block .sb 0 (bytes 0#8 7#8) (some 0#8) .txByte false false false .deep) := by
  refine ⟨?_, rfl, rfl, rfl⟩
  constructor <;> decide

theorem witness_CompletionEndsTheStall :
    Inv (offering (.adc 0xFFFF#16) stall) ∧ (offering (.adc 0xFFFF#16) stall).clk = true ∧
      (0xFFFF#16).toNat < 2 ^ (offering (.adc 0xFFFF#16) stall).cfg.adcBits ∧
      (offering (.adc 0xFFFF#16) stall).inbox = [.event (.adc 0xFFFF#16)] := by
  refine ⟨?_, rfl, by decide, rfl⟩
  constructor <;> decide

theorem witness_ReceivedUnitsAreNotStored :
    ModeFollowsState addressing ∧
      (selectedInstr addressing (.ovf false 0x82#8)).opcode = (selectedInstr addressing (.ovf false 0xFF#8)).opcode ∧
      selectedInstr addressing (.ovf false 0x82#8) ≠ selectedInstr addressing (.ovf false 0xFF#8) := by decide

/-- An address byte of another device and two more units, with a START left over. -/
theorem witness_ForeignTransactionIsIgnored :
    let s : State := { addressing with
      inbox := offer (.ovf false 0x82#8 :: [5#8, 0xFF#8].map (Event.ovf false)) ++ [.event (.start false)] }
    ModeFollowsState s ∧ s.st = .ra ∧ s.clk = false ∧ 0x82#8 ≠ s.cfg.addrMatchByte ∧
      s.inbox = offer (.ovf false 0x82#8 :: [5#8, 0xFF#8].map (Event.ovf false)) ++ [.event (.start false)] := by decide

/-- An early NACK (`k` = 0) and an over-read (`k` = 2). -/
theorem witness_WholeReadSendsResultThenZeros :
    [0, 2].all (fun k =>
      let s : State := { State.reset with inbox := offer (transaction State.reset.cfg.addrMatchByte 0x0237#16 k) ++ [] }
      !s.busy && !s.pwr && s.slp == .deep && decide ((0x0237#16).toNat < 2 ^ s.cfg.adcBits) &&
        s.inbox == offer (transaction s.cfg.addrMatchByte 0x0237#16 k) ++ []) = true := by decide

end Sys2Proof.Tests
end

/-! Proofs of the statements of spec/00_scope.md, O7 and O28, and the lemmas they rest on: the decoder reads every
well-formed instruction back from its word, and what a step does with an address byte. -/

namespace Sys2Proof

/-! ## The decoder on encoded words (spec/30_encoding.md R77, R80) -/

/-- A canonical word decodes to the instruction of the row it selects (R77, R80). -/
theorem decode_of_selectRow {p : Config} {w : DispatchWord} {op : Opcode} (v : Reading)
    (hc : canonicalError p w = none) (hr : selectRow w = some op) : decode p w v = .ok (instrOf op w v) := by
  simp only [decode, hc, hr]

theorem canonicalError_packDW_start (p : Config) (s : Bool) (st : ProtocolState) :
    canonicalError p (packDW 0 false s .start st) = none := by
  simp [canonicalError]

theorem canonicalError_packDW_adc (p : Config) (st : ProtocolState) :
    canonicalError p (packDW 0 false false .adc st) = none := by
  simp [canonicalError]

/-- Every state admits an overflow with `data` = 0 (R80). -/
@[simp] theorem dataFits_zero (st : ProtocolState) : dataFits st 0 = true := by cases st <;> rfl

/-- In a state left to the defensive default an overflow's condition bit is 0 (R75, R81). -/
theorem condBit_of_hasNoOvfRow (p : Config) {st : ProtocolState} (data : Byte) (h : hasNoOvfRow st = true) :
    condBit p .ovf st data = false := by
  cases st <;> simp_all [hasNoOvfRow, condBit]

theorem canonicalError_packDW_ovf {p : Config} {c : Bool} (s : Bool) {st : ProtocolState} {data : Byte}
    (hd : dataFits st data = true) (hc : c = condBit p .ovf st data) :
    canonicalError p (packDW data c s .ovf st) = none := by
  simp [canonicalError, hd, hc]

theorem canonicalError_encode {p : Config} {i : Instr} (h : i.wellFormed p = true) :
    canonicalError p (encode p i) = none := by
  cases i with
  | startStopped st => exact canonicalError_packDW_start p true st
  | startGo st => exact canonicalError_packDW_start p false st
  | ovfStop st data => exact canonicalError_packDW_ovf true h rfl
  | ovfRaMatch rx => exact canonicalError_packDW_ovf false rfl (Eq.symm h)
  | ovfRaNomatch rx =>
    have hc : (rx == p.addrMatchByte) = false := by simpa [Instr.wellFormed] using h
    exact canonicalError_packDW_ovf false rfl hc.symm
  | ovfSaa => exact canonicalError_packDW_ovf false (dataFits_zero .saa) rfl
  | ovfSb => exact canonicalError_packDW_ovf false (dataFits_zero .sb) rfl
  | ovfRabAck => exact canonicalError_packDW_ovf false (dataFits_zero .rab) rfl
  | ovfRabNack => exact canonicalError_packDW_ovf false rfl rfl
  | ovfDefault st => exact canonicalError_packDW_ovf false (dataFits_zero st) (condBit_of_hasNoOvfRow p 0 h).symm
  | adcDoneSaa v => exact canonicalError_packDW_adc p .saa
  | adcDoneStray st v => exact canonicalError_packDW_adc p st

theorem selectRow_encode {p : Config} {i : Instr} (h : i.wellFormed p = true) :
    selectRow (encode p i) = some i.opcode := by
  cases i with
  | startStopped st => exact Laws.EncodeSelects.startStopped st p h
  | startGo st => exact Laws.EncodeSelects.startGo st p h
  | ovfStop st data => exact Laws.EncodeSelects.ovfStop st data p h
  | ovfRaMatch rx => exact Laws.EncodeSelects.ovfRaMatch rx p h
  | ovfRaNomatch rx => exact Laws.EncodeSelects.ovfRaNomatch rx p h
  | ovfSaa => exact Laws.EncodeSelects.ovfSaa p h
  | ovfSb => exact Laws.EncodeSelects.ovfSb p h
  | ovfRabAck => exact Laws.EncodeSelects.ovfRabAck p h
  | ovfRabNack => exact Laws.EncodeSelects.ovfRabNack p h
  | ovfDefault st => exact Laws.EncodeSelects.ovfDefault st p h
  | adcDoneSaa v => exact Laws.EncodeSelects.adcDoneSaa v p h
  | adcDoneStray st v => exact Laws.EncodeSelects.adcDoneStray st v p h

/-- The fields of an encoded word and the reading beside it give the instruction's operands back (R73). -/
theorem instrOf_encode (p : Config) (i : Instr) : instrOf i.opcode (encode p i) i.reading = i := by
  cases i <;> simp [instrOf, encode, Instr.opcode, Instr.reading]

/-- The decoder reads a well-formed instruction back from its word. -/
theorem decode_encode {p : Config} {i : Instr} (h : i.wellFormed p = true) :
    decode p (encode p i) i.reading = .ok i := by
  rw [decode_of_selectRow i.reading (canonicalError_encode h) (selectRow_encode h), instrOf_encode]

/-! ## The read header of a 7-bit address (spec/00_scope.md R12) -/

theorem toNat_readHeader (a : BitVec 7) : (readHeader a).toNat = 2 * a.toNat + 1 := by
  revert a; decide

theorem eq_readHeader_iff (rx : Byte) (a : BitVec 7) : rx = readHeader a ↔ rx.toNat = 2 * a.toNat + 1 := by
  rw [BitVec.toNat_eq, toNat_readHeader]

end Sys2Proof

namespace Sys2Proof.Machine

/-! ## A step on an event (spec/30_encoding.md R79) -/

/-- An offered word that encodes a well-formed instruction of the machine's state runs that instruction. -/
theorem step_of_encode {s : State} {x : Input} {rest : List Input} {i : Instr} (hb : s.inbox = x :: rest)
    (hw : x.asWord s = encode s.cfg i) (hv : x.operand = i.reading) (hwf : i.wellFormed s.cfg = true)
    (hst : i.state = s.st) : step s = exec i { s with inbox := rest } := by
  have hd : decode s.cfg (x.asWord s) x.operand = .ok i := by rw [hw, hv, decode_encode hwf]
  simp only [step, hb, hd, hst, if_true]

/-- The word the pre-decoder makes of an address byte: its condition bit is the address match (R74, R75). -/
theorem dispatchWord_addressByte {s : State} (rx : Byte) (hst : s.st = .ra) (hmode : s.mode = .rxByte) :
    dispatchWord s (.ovf false rx) = packDW rx (rx == s.cfg.addrMatchByte) false .ovf .ra := by
  rw [dispatchWord, hst, hmode]
  rfl

/-- An address byte equal to `ADDR_MATCH_BYTE` runs OVF.RA.MATCH (R94). -/
theorem step_addressByte_match {s : State} {rx : Byte} {rest : List Input} (hst : s.st = .ra)
    (hmode : s.mode = .rxByte) (hb : s.inbox = .event (.ovf false rx) :: rest) (hrx : rx = s.cfg.addrMatchByte) :
    step s = exec (.ovfRaMatch rx) { s with inbox := rest } := by
  have hc : (rx == s.cfg.addrMatchByte) = true := by simpa using hrx
  have hw : dispatchWord s (.ovf false rx) = encode s.cfg (.ovfRaMatch rx) := by
    rw [dispatchWord_addressByte rx hst hmode, hc, encode]
  exact step_of_encode hb hw rfl hc hst.symm

/-- An address byte other than `ADDR_MATCH_BYTE` runs OVF.RA.NOMATCH (R95). -/
theorem step_addressByte_noMatch {s : State} {rx : Byte} {rest : List Input} (hst : s.st = .ra)
    (hmode : s.mode = .rxByte) (hb : s.inbox = .event (.ovf false rx) :: rest) (hrx : rx ≠ s.cfg.addrMatchByte) :
    step s = exec (.ovfRaNomatch rx) { s with inbox := rest } := by
  have hc : (rx == s.cfg.addrMatchByte) = false := by simpa using hrx
  have hw : dispatchWord s (.ovf false rx) = encode s.cfg (.ovfRaNomatch rx) := by
    rw [dispatchWord_addressByte rx hst hmode, hc, encode]
  exact step_of_encode hb hw rfl (by simpa [Instr.wellFormed] using hrx) hst.symm

/-! ## What the two rows of ReceivingAddress do (spec/41_overflow_events.md R94, R95) -/

/-- An overflow is enabled while the clock is free, and its handler runs with the clock held (R92). -/
theorem takeEvent_ovf_of_clock_free {s : State} (handler : State → Answer) (h : s.clk = false) :
    takeEvent .ovf s handler = handler (holdClock (clearLabel s)) :=
  takeEvent_of_enabled handler (by simp [h])

theorem exec_ovfRaMatch {s : State} (rx : Byte) (h : s.clk = false) :
    exec (.ovfRaMatch rx) s = .next { s with st := .saa, mode := .txAck, clk := false, label := Label.quiet } := by
  rw [exec, execOvfRaMatch, takeEvent_ovf_of_clock_free _ h]
  rfl

theorem exec_ovfRaNomatch {s : State} (rx : Byte) (h : s.clk = false) :
    exec (.ovfRaNomatch rx) s =
      .next { s with st := .wfs, mode := .idle, clk := false, label := ⟨false, .addrMismatch⟩ } := by
  rw [exec, execOvfRaNomatch, takeEvent_ovf_of_clock_free _ h]
  rfl

/-! ## `ByteAt` below N (spec/00_scope.md R19) -/

/-- An index below N reads the written byte of its entry. -/
theorem byteAt_of_entry {s : State} {k : Nat} {b : Byte} (hk : k < numResultBytes) (h : s.rb.entry k = some b) :
    byteAt s k = .ok b := by
  simp [byteAt, hk, h]

/-- An index below N faults where its entry is unwritten. -/
theorem byteAt_of_unwritten {s : State} {k : Nat} (hk : k < numResultBytes) (h : s.rb.entry k = none) :
    byteAt s k = .error .unwrittenResult :=
  (byteAt_error_iff s k .unwrittenResult).2 ⟨hk, h, rfl⟩

/-! ## The obligations -/

/-- Settles O7: the received byte is the read header or not, which selects OVF.RA.MATCH or OVF.RA.NOMATCH. -/
theorem onlyTheReadHeaderIsAcknowledged : Obligations.OnlyTheReadHeaderIsAcknowledged := by
  unfold Obligations.OnlyTheReadHeaderIsAcknowledged
  intro s a rx rest haddr hinv hst hclk hb
  have hmode : s.mode = .rxByte := by simpa [ModeFollowsState, armOf, hst, eq_comm] using hinv
  have hrx : rx = s.cfg.addrMatchByte ↔ rx.toNat = 2 * a.toNat + 1 := by rw [haddr, eq_readHeader_iff]
  by_cases h : rx = s.cfg.addrMatchByte
  · refine ⟨_, (step_addressByte_match hst hmode hb h).trans (exec_ovfRaMatch rx hclk), ?_⟩
    simp [hrx.1 h]
  · refine ⟨_, (step_addressByte_noMatch hst hmode hb h).trans (exec_ovfRaNomatch rx hclk), ?_⟩
    simp [mt hrx.2 h]

/-- Settles O28: below N by whether the entry is written, from N on by the padding. -/
theorem byteAtReadsOrPads : Obligations.ByteAtReadsOrPads := by
  unfold Obligations.ByteAtReadsOrPads
  intro s
  have h0 : 0 < numResultBytes := by decide
  have h1 : 1 < numResultBytes := by decide
  exact ⟨fun _ hb => byteAt_of_entry h0 hb, fun _ hb => byteAt_of_entry h1 hb,
    fun hn => byteAt_of_unwritten h0 hn, fun hn => byteAt_of_unwritten h1 hn, fun _ hk => byteAt_of_ge s hk⟩

end Sys2Proof.Machine

/-! Proofs of the statements of spec/10_state.md, O29, O30, O32 to O35, O37 and O38. Each rests on one inversion lemma,
`transition_of_exec`: every completing instruction makes one of the five transitions of `Transition`. The invariants then
need what the decoder says of an instruction's kind and state, which comes first. -/

namespace Sys2Proof.Machine

/-! ## What the decoder reads (spec/30_encoding.md R77 to R80) -/

/-- A canonical word has `r` = 0 and a legal kind, and reports no STOP where the kind is ADC (R80). -/
theorem fields_of_canonicalError {p : Config} {w : DispatchWord} (h : canonicalError p w = none) :
    dwReserved w = false ∧ ∃ k, dwKind w = some k ∧ (k = .adc → dwStop w = false) := by
  unfold canonicalError at h
  split at h
  · cases h
  · refine ⟨by simpa using ‹¬dwReserved w = true›, ?_⟩
    cases hk : dwKind w with
    | none => simp [hk] at h
    | some k =>
      refine ⟨k, rfl, ?_⟩
      rintro rfl
      cases hs : dwStop w with
      | false => rfl
      | true => simp [hk, hs] at h

/-- First-match selection on an assembled word without `data`: the row its other fields name (R77, R78). -/
theorem selectRow_packDW_zero (c s : Bool) (k : EventKind) (st : ProtocolState) (h : k = .adc → s = false) :
    selectRow (packDW 0 c s k st) = some (rowOfFields k s st c) := by
  cases k with
  | start => cases s <;> cases st <;> cases c <;> rfl
  | ovf => cases s <;> cases st <;> cases c <;> rfl
  | adc =>
    rw [h rfl]
    cases st <;> cases c <;> rfl

/-- A canonical word selects the row of its fields (R78). -/
theorem selectRow_of_canonicalError {p : Config} {w : DispatchWord} (h : canonicalError p w = none) :
    ∃ k, dwKind w = some k ∧ selectRow w = some (rowOfFields k (dwStop w) (dwState w) (dwCond w)) := by
  obtain ⟨hr, k, hk, hs⟩ := fields_of_canonicalError h
  refine ⟨k, hk, ?_⟩
  rw [← selectRow_packDW_zero (dwCond w) (dwStop w) k (dwState w) hs, ← selectRow_packDW (dwData w),
    packDW_of_fields hr hk]

/-- What the decoder answers: the instruction of the row that the word's fields name. -/
theorem instrOf_of_decode {p : Config} {w : DispatchWord} {v : Reading} {i : Instr} (h : decode p w v = .ok i) :
    ∃ k, dwKind w = some k ∧ i = instrOf (rowOfFields k (dwStop w) (dwState w) (dwCond w)) w v := by
  cases hc : canonicalError p w with
  | some e => simp [decode, hc] at h
  | none =>
    obtain ⟨k, hk, hrow⟩ := selectRow_of_canonicalError hc
    rw [decode_of_selectRow v hc hrow] at h
    exact ⟨k, hk, by cases h; rfl⟩

theorem kind_instrOf_rowOfFields (k : EventKind) (s c : Bool) (st : ProtocolState) (w : DispatchWord) (v : Reading) :
    (instrOf (rowOfFields k s st c) w v).kind = k := by
  unfold rowOfFields
  split <;> rfl

/-- The kind in the word is the decoded instruction's (R69, R77). -/
theorem kind_of_decode {p : Config} {w : DispatchWord} {v : Reading} {i : Instr} (h : decode p w v = .ok i) :
    dwKind w = some i.kind := by
  obtain ⟨k, hk, rfl⟩ := instrOf_of_decode h
  rw [hk, kind_instrOf_rowOfFields]

theorem opcode_instrOf (op : Opcode) (w : DispatchWord) (v : Reading) : (instrOf op w v).opcode = op := by
  cases op <;> rfl

theorem rowOfFields_saa_ne_adcDoneStray (k : EventKind) (s c : Bool) : rowOfFields k s .saa c ≠ .adcDoneStray := by
  cases k <;> cases s <;> simp [rowOfFields]

/-- A completion in SendingAddressAck is not decoded as a stray one (R105, R106). -/
theorem state_ne_saa_of_decode_adcDoneStray {p : Config} {w : DispatchWord} {v v' : Reading} {st : ProtocolState}
    (h : decode p w v = .ok (.adcDoneStray st v')) : st ≠ .saa := by
  rintro rfl
  obtain ⟨k, -, hi⟩ := instrOf_of_decode h
  have hop : Opcode.adcDoneStray = rowOfFields k (dwStop w) (dwState w) (dwCond w) :=
    (congrArg Instr.opcode hi).trans (opcode_instrOf _ w v)
  rw [← hop] at hi
  injection hi with hst
  rw [← hst] at hop
  exact rowOfFields_saa_ne_adcDoneStray k _ _ hop.symm

/-! ## What a completing instruction does (spec/10_state.md R50) -/

/-- The rows that arm a unit other than TX_BYTE and do nothing else: the state they go to, the unit it arms and the
recovery reason (R90, R91, R93 to R95, R97, R99, R100); none for the other rows. -/
def rearms : Instr → Option (ProtocolState × XcvrMode × Recovery)
  | .startStopped _ => some (.wfs, .idle, .stop)
  | .startGo _ => some (.ra, .rxByte, .none)
  | .ovfStop _ _ => some (.wfs, .idle, .stop)
  | .ovfRaMatch _ => some (.saa, .txAck, .none)
  | .ovfRaNomatch _ => some (.wfs, .idle, .addrMismatch)
  | .ovfSb => some (.rab, .rxAck, .none)
  | .ovfRabNack => some (.wfs, .idle, .nack)
  | .ovfDefault _ => some (.wfs, .idle, .defensive)
  | .ovfSaa => none
  | .ovfRabAck => none
  | .adcDoneSaa _ => none
  | .adcDoneStray _ _ => none

/-- What a completing instruction can do, one constructor per effect on the block. -/
inductive Transition (s : State) : Instr → State → Prop
  /-- Arm a unit other than TX_BYTE. -/
  | rearm {i : Instr} {x : ProtocolState} {m : XcvrMode} {r : Recovery} (hrow : rearms i = some (x, m, r))
      (he : enabled i.kind s = true) :
      Transition s i { s with st := x, mode := m, clk := false, label := ⟨false, r⟩ }
  /-- Hold the clock and begin a conversion (R96). -/
  | startConversion (hclk : s.clk = false) :
      Transition s .ovfSaa
        { s with clk := true, pwr := true, busy := true, slp := .light, label := ⟨!s.busy, .none⟩ }
  /-- Advance the cursor and arm the byte it names (R98). -/
  | sendNextByte {b : Byte} (hclk : s.clk = false) (hb : byteAt s (advanceCursor s).cur.val = .ok b) :
      Transition s .ovfRabAck
        { s with st := .sb, cur := (advanceCursor s).cur, tx := some b, mode := .txByte, clk := false,
                 label := Label.quiet }
  /-- Capture the reading and arm its high byte (R105, R106). -/
  | sendResult {i : Instr} {v : Reading}
      (hrow : i = .adcDoneSaa v ∨ ∃ st, i = .adcDoneStray st v ∧ s.cfg.adcDoneGuarded = false)
      (he : s.busy = true ∧ s.slp = .light) (hv : legalDraw s.cfg v = true) :
      Transition s i
        { s with st := .sb, cur := 0, rb := ⟨some (highByte v), some (lowByte v)⟩, tx := some (highByte v),
                 mode := .txByte, clk := false, pwr := false, busy := false, slp := .deep, label := Label.quiet }
  /-- Capture the reading and leave the protocol alone (R106, guarded). -/
  | captureOnly {st : ProtocolState} {v : Reading} (hg : s.cfg.adcDoneGuarded = true)
      (he : s.busy = true ∧ s.slp = .light) (hv : legalDraw s.cfg v = true) :
      Transition s (.adcDoneStray st v)
        { s with rb := ⟨some (highByte v), some (lowByte v)⟩, pwr := false, busy := false, slp := .deep,
                 label := Label.quiet }

/-- A rearming row completes exactly when it is enabled, and has no fault. -/
theorem exec_of_rearms {i : Instr} {x : ProtocolState} {m : XcvrMode} {r : Recovery} (h : rearms i = some (x, m, r))
    (s : State) :
    exec i s = if enabled i.kind s then .next { s with st := x, mode := m, clk := false, label := ⟨false, r⟩ }
      else .refused (.eventNotEnabled i.kind) := by
  cases i <;> cases h <;> rfl

/-- A rearming row is no OVF.SAA and no completion, arms the unit of the state it goes to, never goes to SendingBytes, and
goes to ReceivingAckBytes from SendingBytes only. -/
theorem rearms_spec {i : Instr} {x : ProtocolState} {m : XcvrMode} {r : Recovery} (h : rearms i = some (x, m, r)) :
    i.opcode ≠ .ovfSaa ∧ i.kind ≠ .adc ∧ armOf x = some m ∧ x ≠ .sb ∧ m ≠ .txByte ∧ (x = .rab → i.state = .sb) := by
  cases i <;> cases h <;> simp [Instr.opcode, Instr.kind, Instr.state, armOf]

/-- An event other than a completion is a START, or is enabled only while the clock is free (R121). -/
theorem start_or_clock_free {k : EventKind} {s : State} (hk : k ≠ .adc) (he : enabled k s = true) :
    k = .start ∨ s.clk = false := by
  cases k with
  | start => exact .inl rfl
  | ovf => exact .inr (by simpa using he)
  | adc => exact absurd rfl hk

theorem kind_of_adcDoneStray {i : Instr} (h : i.opcode = .adcDoneStray) : i.kind = .adc := by
  cases i <;> cases h
  rfl

theorem transition_of_rearms {i : Instr} {s t : State} {x : ProtocolState} {m : XcvrMode} {r : Recovery}
    (hrow : rearms i = some (x, m, r)) (h : exec i s = .next t) : Transition s i t := by
  rw [exec_of_rearms hrow] at h
  split at h
  · cases h
    exact .rearm hrow ‹_›
  · cases h

/-- The rows that do more than arm a unit. -/
theorem instr_of_rearms_none {i : Instr} (h : rearms i = none) :
    i = .ovfSaa ∨ i = .ovfRabAck ∨ (∃ v, i = .adcDoneSaa v) ∨ ∃ st v, i = .adcDoneStray st v := by
  cases i <;> simp [rearms] at h ⊢

theorem adcStart_eq (s : State) :
    adcStart s = { s with busy := true, label := { s.label with adcStart := s.label.adcStart || !s.busy } } := by
  cases s with
  | mk cfg st cur rb tx mode clk pwr busy slp label inbox => cases busy <;> simp [adcStart]

theorem transition_of_ovfSaa {s t : State} (h : exec .ovfSaa s = .next t) : Transition s .ovfSaa t := by
  rw [exec, execOvfSaa] at h
  obtain ⟨he, ht⟩ := takeEvent_next h
  rw [adcStart_eq, returnToIdle_eq] at ht
  cases ht
  exact .startConversion (by simpa using he)

theorem transition_of_ovfRabAck {s t : State} (h : exec .ovfRabAck s = .next t) : Transition s .ovfRabAck t := by
  rw [exec, execOvfRabAck] at h
  obtain ⟨he, ht⟩ := takeEvent_next h
  obtain ⟨b, hb, rfl⟩ := sendCursorByte_next ht
  exact .sendNextByte (by simpa using he) hb

/-- After a capture with the cursor at 0 the byte send arms the reading's high byte (R105, R143). -/
theorem sendCursorByte_of_capture {s : State} {v : Reading} (hcur : s.cur = 0)
    (hrb : s.rb = ⟨some (highByte v), some (lowByte v)⟩) :
    sendCursorByte s = .next (setState .sb (armTxByte (highByte v) s)) := by
  apply sendCursorByte_of_ok
  rw [hcur]
  exact byteAt_zero_of_capture v s hrb

theorem transition_of_adcDoneSaa {v : Reading} {s t : State} (h : exec (.adcDoneSaa v) s = .next t) :
    Transition s (.adcDoneSaa v) t := by
  rw [exec, execAdcDoneSaa] at h
  obtain ⟨hv, he, ht⟩ := takeCompletion_next h
  rw [sendCursorByte_of_capture rfl rfl] at ht
  cases ht
  exact .sendResult (.inl rfl) he hv

theorem transition_of_adcDoneStray {st : ProtocolState} {v : Reading} {s t : State}
    (h : exec (.adcDoneStray st v) s = .next t) : Transition s (.adcDoneStray st v) t := by
  rw [exec, execAdcDoneStray] at h
  obtain ⟨hv, he, ht⟩ := takeCompletion_next h
  cases hg : s.cfg.adcDoneGuarded with
  | true =>
    simp only [clearLabel_cfg, hg, returnToIdle_eq] at ht
    cases ht
    exact .captureOnly hg he hv
  | false =>
    simp only [clearLabel_cfg, hg] at ht
    rw [sendCursorByte_of_capture rfl rfl] at ht
    cases ht
    exact .sendResult (.inr ⟨st, rfl, hg⟩) he hv

/-- Everything an instruction that completes can do. -/
theorem transition_of_exec {i : Instr} {s t : State} (h : exec i s = .next t) : Transition s i t := by
  cases hrow : rearms i with
  | some y => exact transition_of_rearms hrow h
  | none =>
    obtain rfl | rfl | ⟨v, rfl⟩ | ⟨st, v, rfl⟩ := instr_of_rearms_none hrow
    · exact transition_of_ovfSaa h
    · exact transition_of_ovfRabAck h
    · exact transition_of_adcDoneSaa h
    · exact transition_of_adcDoneStray h

/-- A step that answers a next state makes a transition of an instruction that its word decodes to, which has the word's
kind and the machine's state, and is no stray completion in SendingAddressAck. -/
theorem transition_of_step {s t : State} (h : step s = .next t) :
    ∃ x rest i, s.inbox = x :: rest ∧ dwKind (x.asWord s) = some i.kind ∧ i.state = s.st ∧
      (i.opcode = .adcDoneStray → s.st ≠ .saa) ∧ Transition { s with inbox := rest } i t := by
  obtain ⟨x, rest, i, hb, hd, hst, ht⟩ := step_next h
  refine ⟨x, rest, i, hb, kind_of_decode hd, hst, ?_, transition_of_exec ht⟩
  intro hop
  cases i <;> cases hop
  rw [← hst]
  exact state_ne_saa_of_decode_adcDoneStray hd

/-- The only fault of an instruction: OVF.RAB.ACK after byte 0 with the low byte unwritten (R19, R98). -/
theorem exec_fault {i : Instr} {s : State} {r : Fault} (h : exec i s = .fault r) :
    i = .ovfRabAck ∧ s.cur.val = 0 ∧ s.rb.lo = none := by
  cases hrow : rearms i with
  | some y =>
    rw [exec_of_rearms hrow] at h
    split at h <;> cases h
  | none =>
    obtain rfl | rfl | ⟨v, rfl⟩ | ⟨st, v, rfl⟩ := instr_of_rearms_none hrow
    · rw [exec, execOvfSaa] at h
      cases (takeEvent_fault h).2
    · rw [exec, execOvfRabAck] at h
      have hb := sendCursorByte_fault (takeEvent_fault h).2
      obtain ⟨hlt, hentry, -⟩ := (byteAt_error_iff _ _ r).1 hb
      simp only [advanceCursor_cur_val, entryEffect_ovf, holdClock_cur, clearLabel_cur] at hlt hentry
      have hcur : s.cur.val = 0 := by omega
      rw [hcur] at hentry
      exact ⟨rfl, hcur, hentry⟩
    · rw [exec, execAdcDoneSaa] at h
      have hh := takeCompletion_fault h
      rw [sendCursorByte_of_capture rfl rfl] at hh
      cases hh
    · rw [exec, execAdcDoneStray] at h
      have hh := takeCompletion_fault h
      split at hh
      · cases hh
      · rw [sendCursorByte_of_capture rfl rfl] at hh
        cases hh

/-! ## INV1 to INV5 (spec/10_state.md R43 to R47) -/

/-- A transition keeps INV2. -/
theorem powerFollowsConversion_of_transition {i : Instr} {s t : State} (hs : PowerFollowsConversion s)
    (h : Transition s i t) : PowerFollowsConversion t := by
  cases h with
  | rearm hrow he => exact hs
  | startConversion hclk => exact ⟨rfl, by simp⟩
  | sendNextByte hclk hb => exact hs
  | sendResult hrow he hv => exact ⟨rfl, by simp⟩
  | captureOnly hg he hv => exact ⟨rfl, by simp⟩

/-- A transition of an instruction of the machine's state keeps INV1 to INV5. -/
theorem inv_of_transition {i : Instr} {s t : State} (hi : Inv s) (hst : i.state = s.st)
    (hstray : i.opcode = .adcDoneStray → s.st ≠ .saa) (h : Transition s i t) : Inv t := by
  obtain ⟨hmode, hpower, hclock, hcur, hrb, htx⟩ := hi
  have hpower' : PowerFollowsConversion t := powerFollowsConversion_of_transition hpower h
  cases h with
  | rearm hrow he =>
    obtain ⟨-, -, harm, hsb, htxByte, hrab⟩ := rearms_spec hrow
    refine ⟨harm, hpower', nofun, hcur, ?_, fun hm => absurd hm htxByte⟩
    rintro (hx | hx)
    · exact absurd hx hsb
    · exact hrb (.inl (hst.symm.trans (hrab hx)))
  | startConversion hclk =>
    have hsaa : s.st = .saa := hst.symm
    have hack : s.mode = .txAck := by simpa [ModeFollowsState, armOf, hsaa, eq_comm] using hmode
    exact ⟨hmode, hpower', fun _ => ⟨hsaa, hack, rfl⟩, hcur, hrb, htx⟩
  | sendNextByte hclk hb =>
    have hrab : s.st = .rab := hst.symm
    exact ⟨rfl, hpower', nofun, Nat.min_le_right _ _, fun _ => hrb (.inr hrab), nofun⟩
  | sendResult hrow he hv => exact ⟨rfl, hpower', nofun, Nat.zero_le _, by simp, nofun⟩
  | captureOnly hg he hv =>
    exact ⟨hmode, hpower', fun hc => absurd (hclock hc).1 (hstray rfl), hcur, by simp, htx⟩

/-- INV1 to INV5 do not speak of what is offered. -/
theorem inv_of_inbox {s : State} (rest : List Input) (h : Inv s) : Inv { s with inbox := rest } :=
  ⟨h.1, h.2, h.3, h.4, h.5⟩

theorem inv_of_step {s t : State} (hi : Inv s) (h : step s = .next t) : Inv t := by
  obtain ⟨x, rest, i, -, -, hst, hstray, ht⟩ := transition_of_step h
  exact inv_of_transition (inv_of_inbox rest hi) hst hstray ht

/-- Settles O32: the invariants are kept by each of the five transitions. -/
theorem everyStepKeepsTheInvariants : Obligations.EveryStepKeepsTheInvariants := by
  unfold Obligations.EveryStepKeepsTheInvariants
  intro s t hi h
  exact inv_of_step hi h

/-! ## INV6 under the contract (spec/10_state.md R48, spec/70_reset_and_hazards.md R150) -/

@[simp] theorem dwKind_dispatchWord (s : State) (e : Event) : dwKind (dispatchWord s e) = some e.kind :=
  dwKind_packDW _ _ _ _ _

/-- What is offered first is a START exactly when its word's kind says so. -/
theorem offersStart_iff {s : State} {x : Input} {rest : List Input} (h : s.inbox = x :: rest) :
    offersStart s = true ↔ dwKind (x.asWord s) = some .start := by
  cases x <;> simp [offersStart, h, Input.asWord]

/-- A transition keeps INV6 unless it is a START's with the clock held. -/
theorem conversionOnlyInStall_of_transition {i : Instr} {s t : State} (hs : ConversionOnlyInStall s)
    (hst : i.state = s.st) (hstart : i.kind = .start → s.clk = false) (h : Transition s i t) :
    ConversionOnlyInStall t := by
  have hfree : s.clk = false → s.busy = false := fun hc =>
    Bool.eq_false_iff.2 fun hb => by simp [(hs hb).2] at hc
  cases h with
  | rearm hrow he =>
    obtain ⟨-, hadc, -⟩ := rearms_spec hrow
    have hclk : s.clk = false := (start_or_clock_free hadc he).elim hstart id
    simp [ConversionOnlyInStall, hfree hclk]
  | startConversion hclk => exact fun _ => ⟨hst.symm, rfl⟩
  | sendNextByte hclk hb => simp [ConversionOnlyInStall, hfree hclk]
  | sendResult hrow he hv => exact nofun
  | captureOnly hg he hv => exact nofun

theorem conversionOnlyInStall_of_step {s t : State} (hs : ConversionOnlyInStall s) (hno : NoStartDuringStall s)
    (h : step s = .next t) : ConversionOnlyInStall t := by
  obtain ⟨x, rest, i, hb, hkind, hst, -, ht⟩ := transition_of_step h
  refine conversionOnlyInStall_of_transition (s := { s with inbox := rest }) hs hst ?_ ht
  intro hk
  exact hno ((offersStart_iff hb).2 (hkind.trans (congrArg some hk)))

/-- A stall in which a START is offered, against contract clause (a) (R150). -/
def startInStall : State :=
  { State.reset with
    st := .saa, mode := .txAck, clk := true, pwr := true, busy := true, slp := .light,
    inbox := [.event (.start false)] }

theorem inv_startInStall : Inv startInStall := by
  constructor <;> decide

/-- The START of `startInStall` is serviced: the clock is freed and the conversion runs on (R89, R150). -/
theorem step_startInStall :
    step startInStall = .next { startInStall with st := .ra, mode := .rxByte, clk := false, inbox := [] } := rfl

/-- Settles O33: by the transitions, and by the step of `startInStall`. -/
theorem conversionStaysInStallUnderContract : Obligations.ConversionStaysInStallUnderContract := by
  unfold Obligations.ConversionStaysInStallUnderContract
  refine ⟨fun s t hs hno h => conversionOnlyInStall_of_step hs hno h, ?_⟩
  exact ⟨startInStall, _, inv_startInStall, by decide, by decide, step_startInStall, by decide⟩

/-! ## The data line (spec/10_state.md R41) -/

theorem sdaOut_of_clock_held {s : State} (h : s.clk = true) : sdaOut s = .ok .released := by
  simp [sdaOut, h]

/-- In IDLE, RX_BYTE and RX_ACK the line is released, the clock held or not. -/
theorem sdaOut_of_released_mode {s : State} (h : s.mode = .idle ∨ s.mode = .rxByte ∨ s.mode = .rxAck) :
    sdaOut s = .ok .released := by
  obtain h | h | h := h <;> simp [sdaOut, h]

theorem sdaOut_of_txAck {s : State} (hclk : s.clk = false) (h : s.mode = .txAck) : sdaOut s = .ok .low := by
  simp [sdaOut, hclk, h]

theorem sdaOut_of_txByte {s : State} {b : Byte} (hclk : s.clk = false) (h : s.mode = .txByte) (htx : s.tx = some b) :
    sdaOut s = .ok (.data b) := by
  simp [sdaOut, hclk, h, htx]

/-- The data line faults only in TX_BYTE with `tx` unwritten (I12, D24). -/
theorem sdaOut_error {s : State} {r : Fault} (h : sdaOut s = .error r) : s.mode = .txByte ∧ s.tx = none := by
  cases hclk : s.clk with
  | true => simp [sdaOut_of_clock_held hclk] at h
  | false =>
    cases hm : s.mode with
    | idle => simp [sdaOut_of_released_mode (.inl hm)] at h
    | rxByte => simp [sdaOut_of_released_mode (.inr (.inl hm))] at h
    | rxAck => simp [sdaOut_of_released_mode (.inr (.inr hm))] at h
    | txAck => simp [sdaOut_of_txAck hclk hm] at h
    | txByte =>
      cases htx : s.tx with
      | some b => simp [sdaOut_of_txByte hclk hm htx] at h
      | none => exact ⟨rfl, rfl⟩

/-- Settles O29: by whether the clock is held and by the armed unit. -/
theorem dataLineFollowsTheArmedUnit : Obligations.DataLineFollowsTheArmedUnit := by
  unfold Obligations.DataLineFollowsTheArmedUnit
  intro s
  exact ⟨sdaOut_of_clock_held, fun _ hm => sdaOut_of_released_mode hm, sdaOut_of_txAck, fun _ => sdaOut_of_txByte⟩

/-! ## Runs from the invariants (spec/10_state.md R47, spec/60_exceptions.md R128) -/

/-- Where INV5 holds no step faults. -/
theorem step_ne_fault_of_inv {s : State} (hi : Inv s) (r : Fault) : step s ≠ .fault r := by
  intro h
  obtain ⟨x, rest, i, -, -, hst, hf⟩ := step_fault h
  obtain ⟨rfl, -, hlo⟩ := exec_fault hf
  have hrab : s.st = .rab := hst.symm
  exact (hi.bytes_written.1 (.inr hrab)).2 hlo

/-- Where INV5 holds the data line does not fault. -/
theorem sdaOut_ne_error_of_inv {s : State} (hi : Inv s) (r : Fault) : sdaOut s ≠ .error r := by
  intro h
  obtain ⟨hmode, htx⟩ := sdaOut_error h
  exact hi.bytes_written.2 hmode htx

/-- A run does not fault where what every step keeps excludes a faulting step. -/
theorem runSteps_ne_fault {P : State → Prop} (keep : ∀ s t, P s → step s = .next t → P t)
    (safe : ∀ s r, P s → step s ≠ .fault r) (k : Nat) : ∀ s r, P s → runSteps k s ≠ .fault r := by
  induction k with
  | zero => exact fun s r _ => nofun
  | succ k ih =>
    intro s r hs
    cases h : step s with
    | next t =>
      rw [runSteps_of_next h]
      exact ih t r (keep s t hs h)
    | fault q => exact absurd h (safe s q hs)
    | refused q => simp [runSteps, h]

/-- Settles O34: INV1 to INV5 hold along the run, and INV5 excludes both faults. -/
theorem noRunReadsAnUnwrittenByte : Obligations.NoRunReadsAnUnwrittenByte := by
  unfold Obligations.NoRunReadsAnUnwrittenByte
  intro s k hi
  have keep : ∀ s t, Inv s → step s = .next t → Inv t := fun _ _ => inv_of_step
  refine ⟨fun r => runSteps_ne_fault keep (fun _ r hs => step_ne_fault_of_inv hs r) k s r hi, ?_⟩
  intro t ht
  exact sdaOut_ne_error_of_inv (runSteps_keeps keep k s t hi ht)

/-- Contract clause (a) along the whole run from `s` (R131). -/
def NeverStartsDuringStall (s : State) : Prop := ∀ k t, runSteps k s = .next t → NoStartDuringStall t

theorem NeverStartsDuringStall.now {s : State} (h : NeverStartsDuringStall s) : NoStartDuringStall s := h 0 s rfl

theorem NeverStartsDuringStall.of_step {s t : State} (h : NeverStartsDuringStall s) (ht : step s = .next t) :
    NeverStartsDuringStall t :=
  fun k u hu => h (k + 1) u ((runSteps_of_next ht k).trans hu)

/-- Settles O35: INV1 to INV6 and what clause (a) says of the rest of the run are kept together by every step. -/
theorem contractRunsMeetAllSixInvariants : Obligations.ContractRunsMeetAllSixInvariants := by
  unfold Obligations.ContractRunsMeetAllSixInvariants
  intro moves s hrun hi hs k t ht
  have keep : ∀ s t, (Inv s ∧ ConversionOnlyInStall s) ∧ NeverStartsDuringStall s → step s = .next t →
      (Inv t ∧ ConversionOnlyInStall t) ∧ NeverStartsDuringStall t := by
    rintro s t ⟨⟨hi, hs⟩, hno⟩ h
    exact ⟨⟨inv_of_step hi h, conversionOnlyInStall_of_step hs hno.now h⟩, hno.of_step h⟩
  exact (runSteps_keeps keep k s t ⟨⟨hi, hs⟩, hrun.no_start_during_stall⟩ ht).1

/-! ## Power bits, field writers and reset (spec/10_state.md R44, R49, R50) -/

/-- Who writes the power bits, and what: OVF.SAA sets the three, a completion clears them (R33 to R35). -/
theorem powerBits_of_transition {i : Instr} {s t : State} (h : Transition s i t) :
    (i.opcode = .ovfSaa → t.pwr = true ∧ t.busy = true ∧ t.slp = .light) ∧
    (i.kind = .adc → t.pwr = false ∧ t.busy = false ∧ t.slp = .deep) ∧
    (i.opcode ≠ .ovfSaa → i.kind ≠ .adc → t.pwr = s.pwr ∧ t.busy = s.busy ∧ t.slp = s.slp) := by
  cases h with
  | rearm hrow he =>
    obtain ⟨hsaa, hadc, -⟩ := rearms_spec hrow
    exact ⟨fun h => absurd h hsaa, fun h => absurd h hadc, fun _ _ => ⟨rfl, rfl, rfl⟩⟩
  | startConversion hclk => simp [Instr.opcode, Instr.kind]
  | sendNextByte hclk hb => simp [Instr.opcode, Instr.kind]
  | sendResult hrow he hv =>
    obtain rfl | ⟨st, rfl, hg⟩ := hrow <;> simp [Instr.opcode, Instr.kind]
  | captureOnly hg he hv => simp [Instr.opcode, Instr.kind]

/-- Settles O37: by the transitions, and at reset by its definition. -/
theorem powerBitsMoveTogether : Obligations.PowerBitsMoveTogether := by
  unfold Obligations.PowerBitsMoveTogether
  refine ⟨fun i s t h => powerBits_of_transition (transition_of_exec h), ⟨rfl, rfl, rfl⟩, ?_⟩
  intro s t hs h
  obtain ⟨x, rest, i, -, -, -, -, ht⟩ := transition_of_step h
  exact powerFollowsConversion_of_transition (s := { s with inbox := rest }) hs ht

/-- Settles O38: each transition's writes, read off field by field. -/
theorem eachFieldHasItsWriters : Obligations.EachFieldHasItsWriters := by
  unfold Obligations.EachFieldHasItsWriters
  intro i s t h
  cases transition_of_exec h with
  | rearm hrow he =>
    obtain ⟨hsaa, hadc, -⟩ := rearms_spec hrow
    have hstray : i.opcode ≠ .adcDoneStray := mt kind_of_adcDoneStray hadc
    refine ⟨fun _ => ⟨hsaa, fun h => absurd h hstray⟩, by simp, by simp, nofun, ?_, by simp, rfl⟩
    intro hclk _
    exact (start_or_clock_free hadc he).imp_right fun hfree => by simp [hclk] at hfree
  | startConversion hclk => simp [Instr.opcode]
  | sendNextByte hclk hb => simp [Instr.opcode, hclk]
  | sendResult hrow he hv =>
    obtain rfl | ⟨st, rfl, hg⟩ := hrow
    · simp [Instr.opcode]
    · simp [Instr.opcode, hg]
  | captureOnly hg he hv => simp +contextual [Instr.opcode]

/-- Settles O30: field by field at the spec's reset values. -/
theorem resetMeetsTheInvariants : Obligations.ResetMeetsTheInvariants := by
  unfold Obligations.ResetMeetsTheInvariants
  refine ⟨?_, by decide, by decide⟩
  constructor <;> decide

end Sys2Proof.Machine

/-! Proof of the statement of spec/20_memory.md, O25, and what it rests on: the whole next state of each completion and of
the two overflows that follow it in a read. -/

namespace Sys2Proof.Machine

/-! ## Completions (spec/42_adc_events.md R104 to R106) -/

/-- A completion with a legal draw during a conversion in LIGHT runs its handler (R104). -/
theorem takeCompletion_of_ready {v : Reading} {s : State} (handler : State → Answer)
    (he : s.busy = true ∧ s.slp = .light) (hv : v.toNat < 2 ^ s.cfg.adcBits) :
    takeCompletion v s handler = handler (clearLabel s) := by
  have hdraw : legalDraw s.cfg v = true := decide_eq_true hv
  rw [takeCompletion, if_pos hdraw, takeEvent_of_enabled handler ((enabled_adc_iff s).2 he), entryEffect_adc]

theorem exec_adcDoneSaa {v : Reading} {s : State} (he : s.busy = true ∧ s.slp = .light)
    (hv : v.toNat < 2 ^ s.cfg.adcBits) :
    exec (.adcDoneSaa v) s = .next
      { s with st := .sb, cur := 0, rb := ⟨some (highByte v), some (lowByte v)⟩, tx := some (highByte v),
               mode := .txByte, clk := false, pwr := false, busy := false, slp := .deep, label := Label.quiet } := by
  rw [exec, execAdcDoneSaa, takeCompletion_of_ready _ he hv, sendCursorByte_of_capture rfl rfl]
  rfl

/-- Unguarded, a stray completion does what the completion of a read does (R106). -/
theorem exec_adcDoneStray_of_unguarded (st : ProtocolState) {v : Reading} {s : State}
    (hg : s.cfg.adcDoneGuarded = false) (he : s.busy = true ∧ s.slp = .light) (hv : v.toNat < 2 ^ s.cfg.adcBits) :
    exec (.adcDoneStray st v) s = exec (.adcDoneSaa v) s := by
  rw [exec_adcDoneSaa he hv, exec, execAdcDoneStray, takeCompletion_of_ready _ he hv]
  simp only [clearLabel_cfg, hg]
  rw [sendCursorByte_of_capture rfl rfl]
  rfl

theorem exec_adcDoneStray_of_guarded (st : ProtocolState) {v : Reading} {s : State}
    (hg : s.cfg.adcDoneGuarded = true) (he : s.busy = true ∧ s.slp = .light) (hv : v.toNat < 2 ^ s.cfg.adcBits) :
    exec (.adcDoneStray st v) s = .next
      { s with rb := ⟨some (highByte v), some (lowByte v)⟩, pwr := false, busy := false, slp := .deep,
               label := Label.quiet } := by
  rw [exec, execAdcDoneStray, takeCompletion_of_ready _ he hv]
  simp only [clearLabel_cfg, hg, returnToIdle_eq]
  rfl

/-- A stray completion stores the reading for both values of `ADC_DONE_GUARDED` (R106). -/
theorem exec_adcDoneStray_stores (st : ProtocolState) {v : Reading} {s : State} (he : s.busy = true ∧ s.slp = .light)
    (hv : v.toNat < 2 ^ s.cfg.adcBits) :
    ∃ t, exec (.adcDoneStray st v) s = .next t ∧ t.rb = ⟨some (highByte v), some (lowByte v)⟩ := by
  cases hg : s.cfg.adcDoneGuarded with
  | true => exact ⟨_, exec_adcDoneStray_of_guarded st hg he hv, rfl⟩
  | false => exact ⟨_, (exec_adcDoneStray_of_unguarded st hg he hv).trans (exec_adcDoneSaa he hv), rfl⟩

/-! ## A sent byte and the master's ACK (spec/41_overflow_events.md R97, R98) -/

theorem exec_ovfSb {s : State} (h : s.clk = false) :
    exec .ovfSb s = .next { s with st := .rab, mode := .rxAck, clk := false, label := Label.quiet } := by
  have he : enabled .ovf s = true := by simp [h]
  exact (exec_of_rearms rfl s).trans (if_pos he)

/-- A master's ACK arms the byte that the advanced cursor names. -/
theorem exec_ovfRabAck_of_byteAt {s : State} {b : Byte} (h : s.clk = false)
    (hb : byteAt s (advanceCursor s).cur.val = .ok b) :
    exec .ovfRabAck s = .next
      { s with st := .sb, cur := (advanceCursor s).cur, tx := some b, mode := .txByte, clk := false,
               label := Label.quiet } := by
  rw [exec, execOvfRabAck, takeEvent_ovf_of_clock_free _ h]
  exact sendCursorByte_of_ok hb

/-- After byte 0 a master's ACK arms `rb[1]`. -/
theorem exec_ovfRabAck_of_cursor_zero {s : State} {b : Byte} (h : s.clk = false) (hcur : s.cur.val = 0)
    (hlo : s.rb.lo = some b) :
    exec .ovfRabAck s = .next
      { s with st := .sb, cur := 1, tx := some b, mode := .txByte, clk := false, label := Label.quiet } := by
  have hnext : (advanceCursor s).cur = 1 := Fin.ext (by simp [hcur])
  have hb : byteAt s (advanceCursor s).cur.val = .ok b := by
    rw [hnext]
    exact byteAt_of_entry (by decide) hlo
  rw [exec_ovfRabAck_of_byteAt h hb, hnext]

/-! ## The obligation -/

/-- Settles O25: both completions store the bytes; after that of a read the cursor is 0, so a sent byte and its ACK lead to
`rb[1]`. -/
theorem resultIsStoredAndSentHighByteFirst : Obligations.ResultIsStoredAndSentHighByteFirst := by
  unfold Obligations.ResultIsStoredAndSentHighByteFirst
  intro st v s hbusy hslp hv
  have he : s.busy = true ∧ s.slp = .light := ⟨hbusy, hslp⟩
  refine ⟨exec_adcDoneStray_stores st he hv, _, _, _, exec_adcDoneSaa he hv, rfl, rfl, exec_ovfSb rfl,
    exec_ovfRabAck_of_cursor_zero rfl rfl rfl, rfl⟩

end Sys2Proof.Machine

/-! Proofs of the statements of spec/30_encoding.md, O1 to O6, O8, O11, O13 and O45. One description of the canonical
words carries the encoding: they are exactly the encodings of the well-formed instructions. A step on an event is the
meaning of the instruction the transition list selects, because the event's word is that instruction's encoding. The whole
read is a run of such steps. -/

namespace Sys2Proof

/-! ## Canonical words (spec/30_encoding.md R80) -/

/-- R80's lines on the `data` field of an overflow, as the model's check. -/
theorem dataFits_iff (st : ProtocolState) (data : Byte) :
    dataFits st data = true ↔ (st ≠ .ra → st ≠ .rab → data = 0) ∧ (st = .rab → data = 0 ∨ data = 1) := by
  cases st <;> simp [dataFits]

theorem ite_some_eq_none_iff {α : Type} {c : Prop} [Decidable c] {e : α} {o : Option α} :
    (if c then some e else o) = none ↔ ¬ c ∧ o = none := by
  split <;> simp [*]

/-- The decoder's check finds no broken line exactly when every line of R80 holds. -/
theorem canonicalError_eq_none_iff (p : Config) (w : DispatchWord) :
    canonicalError p w = none ↔ Canonical p w := by
  simp only [canonicalError, Canonical, ← dataFits_iff, ite_some_eq_none_iff]
  cases dwKind w with
  | none => simp
  | some k => cases k <;> simp [ite_some_eq_none_iff, and_comm]

/-- A canonical word is the assembly of fields that its kind admits (R75, R76, R80). -/
theorem eq_packDW_of_canonical {p : Config} {w : DispatchWord} (h : Canonical p w) :
    (∃ s, w = packDW 0 false s .start (dwState w)) ∨
    (∃ s data, dataFits (dwState w) data = true ∧
      w = packDW data (condBit p .ovf (dwState w) data) s .ovf (dwState w)) ∨
    w = packDW 0 false false .adc (dwState w) := by
  obtain ⟨hr, hkind, hstart, hadc, hovf⟩ := h
  obtain ⟨k, hk⟩ := Option.ne_none_iff_exists'.1 hkind
  have hw := packDW_of_fields hr hk
  cases k with
  | start =>
    obtain ⟨hc, hd⟩ := hstart hk
    rw [hc, hd] at hw
    exact .inl ⟨_, hw.symm⟩
  | ovf =>
    obtain ⟨hc, hd⟩ := hovf hk
    rw [hc] at hw
    exact .inr (.inl ⟨_, _, (dataFits_iff _ _).2 hd, hw.symm⟩)
  | adc =>
    obtain ⟨hs, hc, hd⟩ := hadc hk
    rw [hs, hc, hd] at hw
    exact .inr (.inr hw.symm)

/-- A received byte is encoded by the row of its match (R94, R95). -/
theorem exists_encode_addressByte (p : Config) (rx : Byte) :
    ∃ i : Instr, i.wellFormed p = true ∧ i.kind = .ovf ∧
      encode p i = packDW rx (condBit p .ovf .ra rx) false .ovf .ra := by
  cases h : rx == p.addrMatchByte with
  | true => exact ⟨.ovfRaMatch rx, h, rfl, by simp [encode, condBit, h]⟩
  | false => exact ⟨.ovfRaNomatch rx, by simp [Instr.wellFormed, bne, h], rfl, by simp [encode, condBit, h]⟩

/-- An overflow without payload is encoded by its state's row (R77, R81). -/
theorem exists_encode_plainUnit (p : Config) {st : ProtocolState} (h : st ≠ .ra) :
    ∃ i : Instr, i.wellFormed p = true ∧ i.kind = .ovf ∧ encode p i = packDW 0 false false .ovf st := by
  cases st with
  | ra => exact absurd rfl h
  | saa => exact ⟨.ovfSaa, rfl, rfl, rfl⟩
  | sb => exact ⟨.ovfSb, rfl, rfl, rfl⟩
  | rab => exact ⟨.ovfRabAck, rfl, rfl, rfl⟩
  | wfs => exact ⟨.ovfDefault .wfs, rfl, rfl, rfl⟩
  | reserved5 => exact ⟨.ovfDefault .reserved5, rfl, rfl, rfl⟩
  | reserved6 => exact ⟨.ovfDefault .reserved6, rfl, rfl, rfl⟩
  | reserved7 => exact ⟨.ovfDefault .reserved7, rfl, rfl, rfl⟩

/-- An assembled overflow word whose `data` its state admits encodes a well-formed instruction (R77, R80). -/
theorem exists_encode_ovf (p : Config) (s : Bool) {st : ProtocolState} {data : Byte} (h : dataFits st data = true) :
    ∃ i : Instr, i.wellFormed p = true ∧ i.kind = .ovf ∧
      encode p i = packDW data (condBit p .ovf st data) s .ovf st := by
  cases s with
  | true => exact ⟨.ovfStop st data, h, rfl, rfl⟩
  | false =>
    obtain ⟨hzero, hbit⟩ := (dataFits_iff st data).1 h
    cases st with
    | ra => exact exists_encode_addressByte p data
    | rab =>
      obtain rfl | rfl := hbit rfl
      · exact exists_encode_plainUnit p nofun
      · exact ⟨.ovfRabNack, rfl, rfl, rfl⟩
    | _ =>
      obtain rfl := hzero nofun nofun
      exact exists_encode_plainUnit p nofun

/-- A canonical word encodes a well-formed instruction, an ADC one with any reading beside it. -/
theorem exists_encode_of_canonical {p : Config} {w : DispatchWord} (v : Reading) (h : Canonical p w) :
    ∃ i : Instr, i.wellFormed p = true ∧ (i.kind = .adc → i.reading = v) ∧ encode p i = w := by
  obtain ⟨s, hw⟩ | ⟨s, data, hfits, hw⟩ | hw := eq_packDW_of_canonical h
  · cases s with
    | true => exact ⟨.startStopped (dwState w), rfl, nofun, hw.symm⟩
    | false => exact ⟨.startGo (dwState w), rfl, nofun, hw.symm⟩
  · obtain ⟨i, hwf, hkind, hi⟩ := exists_encode_ovf p s hfits
    exact ⟨i, hwf, by simp [hkind], hi.trans hw.symm⟩
  · by_cases hsaa : dwState w = .saa
    · rw [hsaa] at hw
      exact ⟨.adcDoneSaa v, rfl, fun _ => rfl, hw.symm⟩
    · exact ⟨.adcDoneStray (dwState w) v, by simpa [Instr.wellFormed] using hsaa, fun _ => rfl, hw.symm⟩

/-! ## The decoder's inverse (spec/30_encoding.md R77 to R80) -/

/-- Only the ADC rows read what stands beside the word (R73). -/
theorem instrOf_encode_of_reading (p : Config) {i : Instr} {v : Reading} (hv : i.kind = .adc → i.reading = v) :
    instrOf i.opcode (encode p i) v = i := by
  cases i <;> simp_all [instrOf, encode, Instr.opcode, Instr.kind, Instr.reading]

theorem decode_encode_of_reading {p : Config} {i : Instr} {v : Reading} (h : i.wellFormed p = true)
    (hv : i.kind = .adc → i.reading = v) : decode p (encode p i) v = .ok i := by
  rw [decode_of_selectRow v (canonicalError_encode h) (selectRow_encode h), instrOf_encode_of_reading p hv]

/-- The decoder answers an instruction for canonical words only. -/
theorem canonical_of_decode {p : Config} {w : DispatchWord} {v : Reading} {i : Instr} (h : decode p w v = .ok i) :
    Canonical p w := by
  rw [← canonicalError_eq_none_iff]
  cases hc : canonicalError p w with
  | none => rfl
  | some e => simp [decode, hc] at h

/-- What the decoder reads is the well-formed instruction that the word encodes. -/
theorem encode_of_decode {p : Config} {w : DispatchWord} {v : Reading} {i : Instr} (h : decode p w v = .ok i) :
    i.wellFormed p = true ∧ encode p i = w ∧ (i.kind = .adc → i.reading = v) := by
  obtain ⟨j, hwf, hv, rfl⟩ := exists_encode_of_canonical v (canonical_of_decode h)
  obtain rfl : j = i := by simpa using (decode_encode_of_reading hwf hv).symm.trans h
  exact ⟨hwf, rfl, hv⟩

@[simp] theorem dwState_encode (p : Config) (i : Instr) : dwState (encode p i) = i.state := by
  cases i <;> simp [encode, Instr.state]

/-- The state in the word is the decoded instruction's (R73). -/
theorem state_of_decode {p : Config} {w : DispatchWord} {v : Reading} {i : Instr} (h : decode p w v = .ok i) :
    i.state = dwState w := by
  obtain ⟨-, rfl, -⟩ := encode_of_decode h
  exact (dwState_encode p i).symm

/-- The decoder refuses exactly the words that are not canonical (R80). -/
theorem decode_error_iff (p : Config) (w : DispatchWord) (v : Reading) :
    (∃ e, decode p w v = .error e) ↔ ¬ Canonical p w := by
  cases h : decode p w v with
  | ok i => exact iff_of_false nofun (not_not_intro (canonical_of_decode h))
  | error e =>
    refine ⟨fun _ hc => ?_, fun _ => ⟨e, rfl⟩⟩
    obtain ⟨i, hwf, hv, rfl⟩ := exists_encode_of_canonical v hc
    simp [decode_encode_of_reading hwf hv] at h

/-! ## The obligations on words -/

/-- Settles O1: an encoded word is canonical, selects its instruction's row, and its fields give the operands back. -/
theorem decodeOfEncodeIsTheInstruction : Obligations.DecodeOfEncodeIsTheInstruction := by
  unfold Obligations.DecodeOfEncodeIsTheInstruction
  intro p i h
  exact decode_encode h

/-- Settles O2: a word that decodes is the encoding of a well-formed instruction, which the decoder gives back. -/
theorem encodeOfDecodeIsTheWord : Obligations.EncodeOfDecodeIsTheWord := by
  unfold Obligations.EncodeOfDecodeIsTheWord
  intro p w v i h
  exact encode_of_decode h

/-- Settles O5: the ten closed words are decoded by evaluation. -/
theorem wordsOfTheSpecDecode : Obligations.WordsOfTheSpecDecode := by
  unfold Obligations.WordsOfTheSpecDecode
  decide

end Sys2Proof

namespace Sys2Proof.Machine

/-! ## The row of a canonical word (spec/30_encoding.md R78) -/

/-- Settles O4: the row of a canonical word's fields is selected, and its instruction stands in that row. -/
theorem canonicalWordSelectsTheRowOfItsFields : Obligations.CanonicalWordSelectsTheRowOfItsFields := by
  unfold Obligations.CanonicalWordSelectsTheRowOfItsFields
  intro p w v hcanon
  have hc : canonicalError p w = none := (canonicalError_eq_none_iff p w).2 hcanon
  obtain ⟨k, hk, hrow⟩ := selectRow_of_canonicalError hc
  exact ⟨k, _, hk, hrow, decode_of_selectRow v hc hrow, opcode_instrOf _ w v⟩

/-! ## The word of an event (spec/30_encoding.md R72 to R79) -/

/-- The armed unit delivers only bits that the state admits (R74, R80). -/
theorem dataFits_unitData {st : ProtocolState} {mode : XcvrMode} (h : armOf st = some mode) (rx : Byte) :
    dataFits st (unitData mode rx) = true := by
  cases st with
  | ra => rfl
  | rab =>
    cases h
    rw [unitData]
    cases rx.getLsbD 0 <;> rfl
  | _ => cases h <;> rfl

/-- Bits that the state admits are what the armed unit delivers of them (R74, R80). -/
theorem unitData_of_dataFits {st : ProtocolState} {mode : XcvrMode} {data : Byte} (h : armOf st = some mode)
    (hd : dataFits st data = true) : unitData mode data = data := by
  obtain ⟨hzero, hbit⟩ := (dataFits_iff st data).1 hd
  cases st with
  | ra =>
    cases h
    rfl
  | rab =>
    cases h
    obtain rfl | rfl := hbit rfl <;> rfl
  | _ => cases h <;> exact (hzero nofun nofun).symm

/-- The event `e`, met in `s`, stands for the well-formed instruction `i`: its word is the encoding of `i`, and its state
and reading are those of `i`. -/
structure EncodesEvent (s : State) (e : Event) (i : Instr) : Prop where
  wellFormed : i.wellFormed s.cfg = true
  state : i.state = s.st
  reading : i.reading = e.reading
  word : dispatchWord s e = encode s.cfg i

/-- A step on an event runs the instruction the event stands for (R79). -/
theorem step_of_encodesEvent {s : State} {e : Event} {i : Instr} {rest : List Input} (h : EncodesEvent s e i)
    (hb : s.inbox = .event e :: rest) : step s = exec i { s with inbox := rest } :=
  step_of_encode hb h.word h.reading.symm h.wellFormed h.state

/-- A START's word carries no payload, so it does not depend on the armed unit (R74). -/
theorem dispatchWord_start (s : State) (sf : Bool) :
    dispatchWord s (.start sf) = packDW 0 false sf .start s.st := by
  cases hst : s.st <;> simp [dispatchWord, hst, condBit, eventData, Event.kind, Event.stopBit]

/-- A completion's word carries no payload either: the reading travels beside it (R73, R74). -/
theorem dispatchWord_adc (s : State) (v : Reading) :
    dispatchWord s (.adc v) = packDW 0 false false .adc s.st := by
  cases hst : s.st <;> simp [dispatchWord, hst, condBit, eventData, Event.kind, Event.stopBit]

theorem encodesEvent_start (s : State) (sf : Bool) : EncodesEvent s (.start sf) (selectedInstr s (.start sf)) := by
  cases sf with
  | true => exact ⟨rfl, rfl, rfl, dispatchWord_start s true⟩
  | false => exact ⟨rfl, rfl, rfl, dispatchWord_start s false⟩

theorem encodesEvent_adc (s : State) (v : Reading) : EncodesEvent s (.adc v) (selectedInstr s (.adc v)) := by
  by_cases hsaa : s.st = .saa
  · rw [selectedInstr, if_pos hsaa]
    exact ⟨rfl, hsaa.symm, rfl, by rw [dispatchWord_adc, hsaa, encode]⟩
  · rw [selectedInstr, if_neg hsaa]
    exact ⟨by simpa [Instr.wellFormed] using hsaa, rfl, rfl, dispatchWord_adc s v⟩

/-- An overflow in ReceivingAddress stands for the row of the received byte's match (R94, R95). -/
theorem encodesEvent_addressByte {s : State} (rx : Byte) (hst : s.st = .ra) (hmode : s.mode = .rxByte) :
    EncodesEvent s (.ovf false rx) (selectedInstr s (.ovf false rx)) := by
  simp only [selectedInstr, hst]
  split
  case isTrue hrx =>
    have hc : (rx == s.cfg.addrMatchByte) = true := by simpa using hrx
    exact ⟨hc, hst.symm, rfl, by rw [dispatchWord_addressByte rx hst hmode, hc, encode]⟩
  case isFalse hrx =>
    have hc : (rx == s.cfg.addrMatchByte) = false := by simpa using hrx
    exact ⟨by simpa [Instr.wellFormed] using hrx, hst.symm, rfl,
      by rw [dispatchWord_addressByte rx hst hmode, hc, encode]⟩

/-- An overflow in ReceivingAckBytes stands for the row of the master's answer (R98, R99). -/
theorem encodesEvent_answerBit {s : State} (rx : Byte) (hst : s.st = .rab) (hmode : s.mode = .rxAck) :
    EncodesEvent s (.ovf false rx) (selectedInstr s (.ovf false rx)) := by
  have hw : dispatchWord s (.ovf false rx) =
      encode s.cfg (if rx.getLsbD 0 then .ovfRabNack else .ovfRabAck) := by
    rw [dispatchWord, eventData, hst, hmode, unitData]
    cases rx.getLsbD 0 <;> rfl
  simp only [selectedInstr, hst]
  split at hw
  case isTrue hbit =>
    rw [if_pos hbit]
    exact ⟨rfl, hst.symm, rfl, hw⟩
  case isFalse hbit =>
    rw [if_neg hbit]
    exact ⟨rfl, hst.symm, rfl, hw⟩

theorem encodesEvent_ovf {s : State} (h : ModeFollowsState s) (b : Bool) (rx : Byte) :
    EncodesEvent s (.ovf b rx) (selectedInstr s (.ovf b rx)) := by
  cases b with
  | true => exact ⟨dataFits_unitData h rx, rfl, rfl, rfl⟩
  | false =>
    obtain ⟨cfg, st, cur, rb, tx, mode, clk, pwr, busy, slp, label, inbox⟩ := s
    cases st with
    | ra =>
      cases h
      exact encodesEvent_addressByte rx rfl rfl
    | rab =>
      cases h
      exact encodesEvent_answerBit rx rfl rfl
    | _ => cases h <;> exact ⟨rfl, rfl, rfl, rfl⟩

/-- Under INV1 every event stands for the instruction that the transition list selects (R73 to R79). -/
theorem encodesEvent_selectedInstr {s : State} (h : ModeFollowsState s) (e : Event) :
    EncodesEvent s e (selectedInstr s e) := by
  cases e with
  | start sf => exact encodesEvent_start s sf
  | ovf b rx => exact encodesEvent_ovf h b rx
  | adc v => exact encodesEvent_adc s v

theorem step_event {s : State} {e : Event} {rest : List Input} (h : ModeFollowsState s)
    (hb : s.inbox = .event e :: rest) : step s = exec (selectedInstr s e) { s with inbox := rest } :=
  step_of_encodesEvent (encodesEvent_selectedInstr h e) hb

theorem canonical_dispatchWord {s : State} (h : ModeFollowsState s) (e : Event) :
    Canonical s.cfg (dispatchWord s e) := by
  have he := encodesEvent_selectedInstr h e
  rw [he.word, ← canonicalError_eq_none_iff]
  exact canonicalError_encode he.wellFormed

/-! ## The obligations on events and steps -/

/-- Settles O3: by the canonical words, and by the instruction each event stands for. -/
theorem nonCanonicalWordsAreRefused : Obligations.NonCanonicalWordsAreRefused := by
  unfold Obligations.NonCanonicalWordsAreRefused
  refine ⟨decode_error_iff, ?_, fun s e h => canonical_dispatchWord h e⟩
  intro s w v rest hb hnot
  obtain ⟨e, he⟩ := (decode_error_iff s.cfg w v).2 hnot
  exact ⟨e, by simp only [step, hb, Input.asWord, Input.operand, he]⟩

/-- Settles O6: the event of the word's kind, with the word's STOP qualifier and its `data` as the sampled bits. -/
theorem everyCanonicalWordIsAnEventsWord : Obligations.EveryCanonicalWordIsAnEventsWord := by
  unfold Obligations.EveryCanonicalWordIsAnEventsWord
  intro s w hmode hcanon hst
  obtain ⟨sf, hw⟩ | ⟨b, data, hfits, hw⟩ | hw := eq_packDW_of_canonical hcanon <;> rw [hst] at hw
  · exact ⟨.start sf, (dispatchWord_start s sf).trans hw.symm⟩
  · rw [hst] at hfits
    have hdata : unitData s.mode data = data := unitData_of_dataFits hmode hfits
    exact ⟨.ovf b data, by rw [hw, dispatchWord, eventData, hdata]; rfl⟩
  · exact ⟨.adc 0, (dispatchWord_adc s 0).trans hw.symm⟩

/-- Settles O11: an event's word encodes the instruction the transition list selects, and the decoder reads it back. -/
theorem eventRunsItsTransition : Obligations.EventRunsItsTransition := by
  unfold Obligations.EventRunsItsTransition
  intro s e rest h hb
  exact step_event h hb

/-- A step runs the instruction of the machine's state that the offered word decodes to (R79). -/
theorem step_of_decode {s : State} {x : Input} {rest : List Input} {i : Instr} (hb : s.inbox = x :: rest)
    (hd : decode s.cfg (x.asWord s) x.operand = .ok i) (hst : i.state = s.st) :
    step s = exec i { s with inbox := rest } := by
  simp only [step, hb, hd, hst, if_true]

/-- Settles O8: the step's own case of a decoded word; the state in an event's word is the machine's. -/
theorem stepRunsTheDecodedInstruction : Obligations.StepRunsTheDecodedInstruction := by
  unfold Obligations.StepRunsTheDecodedInstruction
  refine ⟨fun s x rest i => step_of_decode, ?_⟩
  intro s e rest i hb hd
  have hst : i.state = s.st := (state_of_decode hd).trans (dwState_packDW ..)
  exact step_of_decode hb hd hst

/-! ## A placed word (notes/assumptions/2) -/

theorem exec_ovfSaa {s : State} (h : s.clk = false) :
    exec .ovfSaa s =
      .next { s with clk := true, pwr := true, busy := true, slp := .light, label := ⟨!s.busy, .none⟩ } := by
  rw [exec, execOvfSaa, takeEvent_ovf_of_clock_free _ h, adcStart_eq]
  rfl

/-- An enabled instruction with a legal reading completes, OVF.RAB.ACK where the low byte is written (R98, R121). -/
theorem exec_completes {i : Instr} {s : State} (he : enabled i.kind s = true)
    (hv : legalDraw s.cfg i.reading = true) (hlo : i = .ovfRabAck → s.rb.lo ≠ none) : ∃ t, exec i s = .next t := by
  cases hrow : rearms i with
  | some y => exact ⟨_, (exec_of_rearms hrow s).trans (if_pos he)⟩
  | none =>
    obtain rfl | rfl | ⟨v, rfl⟩ | ⟨st, v, rfl⟩ := instr_of_rearms_none hrow
    · exact ⟨_, exec_ovfSaa (by simpa [Instr.kind] using he)⟩
    · have hclk : s.clk = false := by simpa [Instr.kind] using he
      obtain ⟨b, hb⟩ := Option.ne_none_iff_exists'.1 (hlo rfl)
      by_cases hcur : s.cur.val = 0
      · exact ⟨_, exec_ovfRabAck_of_cursor_zero hclk hcur hb⟩
      · have hge : 2 ≤ (advanceCursor s).cur.val := by rw [advanceCursor_cur_val]; omega
        exact ⟨_, exec_ovfRabAck_of_byteAt hclk (byteAt_of_ge s hge)⟩
    · exact ⟨_, exec_adcDoneSaa ((enabled_adc_iff s).1 he) (of_decide_eq_true hv)⟩
    · obtain ⟨t, ht, -⟩ := exec_adcDoneStray_stores st ((enabled_adc_iff s).1 he) (of_decide_eq_true hv)
      exact ⟨t, ht⟩

/-- The placing enables the word's event (R121). -/
theorem enabled_stageWord {w : DispatchWord} {k : EventKind} (v : Reading) (s : State) (hk : dwKind w = some k) :
    enabled k (stageWord w v s) = true := by
  cases k with
  | start => exact enabled_start _
  | ovf => simp [stageWord, hk]
  | adc => simp [enabled_adc_iff, stageWord, hk]

theorem written_ne_none {needed : Bool} {b : Option Byte} (h : needed = true ∨ b ≠ none) :
    written needed b ≠ none := by
  cases needed with
  | true => simp [written]
  | false => simpa [written] using h

/-- The placing gives the result its bytes where they may be read (R47). -/
theorem rb_stageWord_ne_none {w : DispatchWord} (v : Reading) (s : State) (h : dwState w = .sb ∨ dwState w = .rab) :
    (stageWord w v s).rb.hi ≠ none ∧ (stageWord w v s).rb.lo ≠ none := by
  have hsending : (dwState w == .sb || dwState w == .rab) = true := by simpa using h
  exact ⟨written_ne_none (.inl hsending), written_ne_none (.inl hsending)⟩

theorem mode_stageWord {w : DispatchWord} (v : Reading) (s : State) (h : armOf (dwState w) ≠ none) :
    armOf (dwState w) = some (stageWord w v s).mode := by
  obtain ⟨m, hm⟩ := Option.ne_none_iff_exists'.1 h
  simp [stageWord, hm]

/-- TX_BYTE is the unit of SendingBytes only (R43). -/
theorem eq_sb_of_armOf {st : ProtocolState} (h : armOf st = some .txByte) : st = .sb := by
  cases st <;> cases h
  rfl

/-- The placing of a word with a legal state keeps INV1 to INV5. -/
theorem inv_stageWord {w : DispatchWord} {s : State} (v : Reading) (hi : Inv s) (h : armOf (dwState w) ≠ none) :
    Inv (stageWord w v s) where
  mode_follows_state := mode_stageWord v s h
  power_follows_conversion := by
    obtain ⟨hpwr, hslp⟩ := hi.power_follows_conversion
    cases hdone : dwKind w == some .adc <;> simp [PowerFollowsConversion, stageWord, hdone, hpwr, hslp]
  clock_held_only_in_stall := by
    intro hclk
    obtain ⟨⟨hheld, hst⟩, -⟩ : (s.clk = true ∧ dwState w = .saa) ∧ dwKind w ≠ some .ovf := by
      simpa [stageWord] using hclk
    obtain ⟨-, -, hbusy⟩ := hi.clock_held_only_in_stall hheld
    exact ⟨hst, by simp [stageWord, hst, armOf], by simp [stageWord, hbusy]⟩
  cursor_within_result := hi.cursor_within_result
  bytes_written := by
    refine ⟨rb_stageWord_ne_none v s, fun hm => ?_⟩
    have hst : dwState w = .sb := eq_sb_of_armOf (hm ▸ mode_stageWord v s h)
    exact written_ne_none (.inl (by simpa using hst))

/-- Settles O13: the placing puts the machine in the word's state with its event enabled, so the step completes. -/
theorem stagedWordRunsNext : Obligations.StagedWordRunsNext := by
  unfold Obligations.StagedWordRunsNext
  intro s w v i hd hv
  refine ⟨?_, fun hi h => inv_stageWord v hi h⟩
  have hst : i.state = dwState w := state_of_decode hd
  have hstep := step_of_decode (s := stageWord w v s) rfl hd hst
  have he : enabled i.kind (stageWord w v s) = true := enabled_stageWord v s (kind_of_decode hd)
  have hlo : i = .ovfRabAck → (stageWord w v s).rb.lo ≠ none := by
    rintro rfl
    exact (rb_stageWord_ne_none v s (.inr hst.symm)).2
  obtain ⟨t, ht⟩ := exec_completes (s := { stageWord w v s with inbox := s.inbox }) he hv hlo
  exact ⟨t, hstep.trans ht, ht⟩

/-! ## Runs with what they start and send -/

/-- `n` steps lead from `s` to `t`, start `pulses` conversions and shift `bytes` out. -/
structure RunsTo (n : Nat) (s t : State) (pulses : Nat) (bytes : List Byte) : Prop where
  run : runSteps n s = .next t
  started : pulsesIn n s = pulses
  sent : bytesSent n s = bytes

theorem runsTo_zero (s : State) : RunsTo 0 s s 0 [] := ⟨rfl, rfl, rfl⟩

theorem runsTo_of_step {s t : State} {p : Nat} {bs : List Byte} (h : step s = .next t)
    (hp : (if t.label.adcStart then 1 else 0) = p)
    (hbs : (if s.st == .sb && t.st == .rab then s.tx.toList else []) = bs) : RunsTo 1 s t p bs where
  run := runSteps_of_next h 0
  started := (pulsesIn_of_next h 0).trans hp
  sent := by rw [bytesSent_of_next h, hbs, bytesSent, List.append_nil]

/-- A step that starts no conversion and ends outside ReceivingAckBytes starts and sends nothing. -/
theorem runsTo_of_quiet_step {s t : State} (h : step s = .next t) (hlabel : t.label.adcStart = false)
    (hst : t.st ≠ .rab) : RunsTo 1 s t 0 [] :=
  runsTo_of_step h (by simp [hlabel]) (by simp [hst])

theorem RunsTo.trans {m n p q : Nat} {s t u : State} {bs cs : List Byte} (h : RunsTo m s t p bs)
    (h' : RunsTo n t u q cs) : RunsTo (m + n) s u (p + q) (bs ++ cs) := by
  induction m generalizing s p bs with
  | zero =>
    obtain ⟨hrun, rfl, rfl⟩ := h
    cases hrun
    simpa [pulsesIn, bytesSent] using h'
  | succ m ih =>
    obtain ⟨hrun, rfl, rfl⟩ := h
    obtain ⟨x, hx, hrun⟩ := runSteps_succ_next hrun
    obtain ⟨hr, hp, hb⟩ := ih ⟨hrun, rfl, rfl⟩
    rw [Nat.succ_add, pulsesIn_of_next hx, bytesSent_of_next hx, Nat.add_assoc, List.append_assoc, ← hp, ← hb]
    exact ⟨(runSteps_of_next hx _).trans hr, pulsesIn_of_next hx _, bytesSent_of_next hx _⟩

/-! ## The steps of a read (spec/40_framing_events.md R90, spec/41_overflow_events.md R94 to R99) -/

theorem exec_startGo (st : ProtocolState) (s : State) :
    exec (.startGo st) s = .next { s with st := .ra, mode := .rxByte, clk := false, label := Label.quiet } :=
  (exec_of_rearms rfl s).trans (if_pos (enabled_start s))

theorem exec_ovfRabNack {s : State} (h : s.clk = false) :
    exec .ovfRabNack s = .next { s with st := .wfs, mode := .idle, clk := false, label := ⟨false, .nack⟩ } := by
  have he : enabled .ovf s = true := by simp [h]
  exact (exec_of_rearms rfl s).trans (if_pos he)

theorem step_start {s : State} {rest : List Input} (hb : s.inbox = .event (.start false) :: rest) :
    step s = .next { s with st := .ra, mode := .rxByte, clk := false, label := Label.quiet, inbox := rest } :=
  (step_of_encodesEvent (encodesEvent_start s false) hb).trans (exec_startGo s.st _)

theorem step_matchedAddress {s : State} {rest : List Input} (hst : s.st = .ra) (hmode : s.mode = .rxByte)
    (hclk : s.clk = false) (hb : s.inbox = .event (.ovf false s.cfg.addrMatchByte) :: rest) :
    step s = .next { s with st := .saa, mode := .txAck, clk := false, label := Label.quiet, inbox := rest } :=
  (step_addressByte_match hst hmode hb rfl).trans (exec_ovfRaMatch _ hclk)

/-- The end of the address ACK bit starts the conversion (R96). -/
theorem step_ackBit {s : State} {rest : List Input} (hst : s.st = .saa) (hmode : s.mode = .txAck)
    (hclk : s.clk = false) (hb : s.inbox = .event plainUnit :: rest) :
    step s = .next { s with clk := true, pwr := true, busy := true, slp := .light, label := ⟨!s.busy, .none⟩,
                            inbox := rest } := by
  have hinv : ModeFollowsState s := by rw [ModeFollowsState, hst, hmode, armOf]
  have hi : selectedInstr s plainUnit = .ovfSaa := by simp only [selectedInstr, plainUnit, hst]
  rw [step_event hinv hb, hi]
  exact exec_ovfSaa hclk

/-- The completion that ends the stretch (R105). -/
theorem step_completion {s : State} {v : Reading} {rest : List Input} (hst : s.st = .saa)
    (he : s.busy = true ∧ s.slp = .light) (hv : v.toNat < 2 ^ s.cfg.adcBits) (hb : s.inbox = .event (.adc v) :: rest) :
    step s = .next
      { s with st := .sb, cur := 0, rb := ⟨some (highByte v), some (lowByte v)⟩, tx := some (highByte v),
               mode := .txByte, clk := false, pwr := false, busy := false, slp := .deep, label := Label.quiet,
               inbox := rest } := by
  have hi : selectedInstr s (.adc v) = .adcDoneSaa v := by rw [selectedInstr, if_pos hst]
  rw [step_of_encodesEvent (encodesEvent_adc s v) hb, hi]
  exact exec_adcDoneSaa he hv

/-- `s` after the unit of a sent byte: the answer bit armed, with `rest` still offered (R97). -/
def awaitingAnswer (rest : List Input) (s : State) : State :=
  { s with st := .rab, mode := .rxAck, clk := false, label := Label.quiet, inbox := rest }

theorem step_sentByte {s : State} {rest : List Input} (hst : s.st = .sb) (hmode : s.mode = .txByte)
    (hclk : s.clk = false) (hb : s.inbox = .event plainUnit :: rest) :
    step s = .next (awaitingAnswer rest s) := by
  have hinv : ModeFollowsState s := by rw [ModeFollowsState, hst, hmode, armOf]
  have hi : selectedInstr s plainUnit = .ovfSb := by simp only [selectedInstr, plainUnit, hst]
  rw [step_event hinv hb, hi]
  exact exec_ovfSb hclk

theorem step_masterAck {s : State} {rest : List Input} (hst : s.st = .rab) (hmode : s.mode = .rxAck)
    (hb : s.inbox = .event (answerUnit true) :: rest) : step s = exec .ovfRabAck { s with inbox := rest } := by
  have hinv : ModeFollowsState s := by rw [ModeFollowsState, hst, hmode, armOf]
  have hi : selectedInstr s (answerUnit true) = .ovfRabAck := by simp [selectedInstr, answerUnit, hst]
  rw [step_event hinv hb, hi]

theorem step_masterNack {s : State} {rest : List Input} (hst : s.st = .rab) (hmode : s.mode = .rxAck)
    (hclk : s.clk = false) (hb : s.inbox = .event (answerUnit false) :: rest) :
    step s = .next { s with st := .wfs, mode := .idle, clk := false, label := ⟨false, .nack⟩, inbox := rest } := by
  have hinv : ModeFollowsState s := by rw [ModeFollowsState, hst, hmode, armOf]
  have hi : selectedInstr s (answerUnit false) = .ovfRabNack := by simp [selectedInstr, answerUnit, hst]
  rw [step_event hinv hb, hi]
  exact exec_ovfRabNack hclk

/-! ## The bytes of a read (spec/41_overflow_events.md R98, R103) -/

/-- The byte that a read of `v` sends at position `j`: the high byte, the low byte, then padding. -/
def resultByte (v : Reading) : Nat → Byte
  | 0 => highByte v
  | 1 => lowByte v
  | _ + 2 => 0

/-- What a read of `v` has made of the block while the byte at position `j` is sent. -/
structure SendingByte (v : Reading) (j : Nat) (s : State) : Prop where
  st : s.st = .sb
  mode : s.mode = .txByte
  clk : s.clk = false
  pwr : s.pwr = false
  busy : s.busy = false
  slp : s.slp = .deep
  cur : s.cur.val = min j 2
  rb : s.rb = ⟨some (highByte v), some (lowByte v)⟩
  tx : s.tx = some (resultByte v j)

/-- With the result of `v` stored, `ByteAt` reads the byte of the position, saturated at N (R19). -/
theorem byteAt_of_result {s : State} {v : Reading} (h : s.rb = ⟨some (highByte v), some (lowByte v)⟩) (j : Nat) :
    byteAt s (min j 2) = .ok (resultByte v j) := by
  match j with
  | 0 => exact byteAt_zero_of_capture v s h
  | 1 => exact byteAt_of_entry (by decide) (by rw [h]; rfl)
  | j + 2 => exact byteAt_of_ge s (by omega)

/-- The unit of the byte at position `j` shifts that byte out and waits for the answer. -/
theorem runsTo_sentByte {v : Reading} {j : Nat} {s : State} {rest : List Input} (h : SendingByte v j s)
    (hb : s.inbox = .event plainUnit :: rest) :
    RunsTo 1 s (awaitingAnswer rest s) 0 [resultByte v j] :=
  runsTo_of_step (step_sentByte h.st h.mode h.clk hb) rfl (by simp [awaitingAnswer, h.st, h.tx])

/-- An acknowledged byte is followed by the byte at the next position. -/
theorem runsTo_ackedByte {v : Reading} {j : Nat} {s : State} {rest : List Input} (h : SendingByte v j s)
    (hb : s.inbox = offer (readByte true) ++ rest) :
    ∃ t, RunsTo 2 s t 0 [resultByte v j] ∧ SendingByte v (j + 1) t ∧ t.inbox = rest := by
  have hnext : (advanceCursor s).cur.val = min (j + 1) 2 := by rw [advanceCursor_cur_val, h.cur]; omega
  have hbyte : byteAt s (advanceCursor s).cur.val = .ok (resultByte v (j + 1)) := by
    rw [hnext]
    exact byteAt_of_result h.rb (j + 1)
  have hack := (step_masterAck (s := awaitingAnswer (.event (answerUnit true) :: rest) s) rfl rfl rfl).trans
    (exec_ovfRabAck_of_byteAt rfl hbyte)
  exact ⟨_, (runsTo_sentByte h hb).trans (runsTo_of_quiet_step hack rfl nofun),
    ⟨rfl, rfl, rfl, h.pwr, h.busy, h.slp, hnext, h.rb, rfl⟩, rfl⟩

/-- A byte that the master does not acknowledge ends the read (R99). -/
theorem runsTo_nackedByte {v : Reading} {j : Nat} {s : State} {rest : List Input} (h : SendingByte v j s)
    (hb : s.inbox = offer (readByte false) ++ rest) :
    RunsTo 2 s { s with st := .wfs, mode := .idle, clk := false, label := ⟨false, .nack⟩, inbox := rest } 0
      [resultByte v j] :=
  (runsTo_sentByte h hb).trans (runsTo_of_quiet_step (step_masterNack rfl rfl rfl rfl) rfl nofun)

/-- `k` acknowledged bytes from position `j` on. -/
theorem runsTo_readAcked {v : Reading} {rest : List Input} (k : Nat) : ∀ {j : Nat} {s : State}, SendingByte v j s →
    s.inbox = offer (readAcked k) ++ rest →
    ∃ t, RunsTo (2 * k) s t 0 ((List.range' j k).map (resultByte v)) ∧ SendingByte v (j + k) t ∧ t.inbox = rest := by
  induction k with
  | zero => exact fun {j s} h hb => ⟨s, runsTo_zero s, h, hb⟩
  | succ k ih =>
    intro j s h hb
    obtain ⟨t, hst, ht, htb⟩ := runsTo_ackedByte h hb
    obtain ⟨u, htu, hu, hub⟩ := ih ht htb
    rw [Nat.succ_add_eq_add_succ] at hu
    rw [Nat.mul_succ, Nat.add_comm]
    exact ⟨u, hst.trans htu, hu, hub⟩

/-- From a state with no conversion running, the START, the matched address, its ACK bit and the completion lead to the
first byte, with one conversion started (R90, R94, R96, R105). -/
theorem runsTo_firstByte {s : State} {v : Reading} {rest : List Input} (hbusy : s.busy = false)
    (hv : v.toNat < 2 ^ s.cfg.adcBits)
    (hb : s.inbox = offer [.start false, .ovf false s.cfg.addrMatchByte, plainUnit, .adc v] ++ rest) :
    ∃ t, RunsTo 4 s t 1 [] ∧ SendingByte v 0 t ∧ t.inbox = rest := by
  have hstart := runsTo_of_quiet_step (step_start hb) rfl nofun
  have haddr := hstart.trans (runsTo_of_quiet_step (step_matchedAddress rfl rfl rfl rfl) rfl nofun)
  have hack := haddr.trans (runsTo_of_step (p := 1) (bs := []) (step_ackBit rfl rfl rfl rfl) (by simp [hbusy]) rfl)
  have hdone := hack.trans (runsTo_of_quiet_step (step_completion rfl ⟨rfl, rfl⟩ hv rfl) rfl nofun)
  exact ⟨_, hdone, ⟨rfl, rfl, rfl, rfl, rfl, rfl, rfl, rfl, rfl⟩, rfl⟩

/-- The first `k + 1` bytes of a read. -/
theorem map_resultByte_range (v : Reading) (k : Nat) :
    (List.range (k + 1)).map (resultByte v) =
      (highByte v :: lowByte v :: List.replicate k (0 : Byte)).take (k + 1) := by
  apply List.ext_getElem
  · simp
  · intro n hn _
    match n with
    | 0 => simp [resultByte]
    | 1 => simp [resultByte]
    | n + 2 => simp [resultByte]

/-- Settles O45: the first byte, the `k` acknowledged ones and the last one, put together. -/
theorem wholeReadSendsResultThenZeros : Obligations.WholeReadSendsResultThenZeros := by
  unfold Obligations.WholeReadSendsResultThenZeros
  intro s v k rest hbusy _ _ hv hb
  simp only [transaction, offer, List.map_append, List.append_assoc] at hb
  obtain ⟨t, hst, ht, htb⟩ := runsTo_firstByte hbusy hv hb
  obtain ⟨u, htu, hu, hub⟩ := runsTo_readAcked k ht htb
  obtain ⟨hrun, hstarted, hsent⟩ := (hst.trans htu).trans (runsTo_nackedByte hu hub)
  have hn : 6 + 2 * k = 4 + 2 * k + 2 := by omega
  rw [hn]
  refine ⟨⟨_, hrun, rfl, rfl, rfl, hu.pwr, hu.busy, hu.slp, ?_, hu.rb, rfl, rfl⟩, hstarted, ?_⟩
  · rw [← Nat.zero_add k]
    exact hu.cur
  · refine (hsent.trans ?_).trans (map_resultByte_range v k)
    rw [List.range_succ, List.range_eq_range', List.map_append, Nat.zero_add]
    rfl

end Sys2Proof.Machine

/-! Proofs of the statements of spec/40_framing_events.md, O14, O15 and O39. A START has two rows and both are told by the
bits of one mask; what each row does is a rearming, enabled in every state. -/

namespace Sys2Proof

/-! ## The two START rows (spec/30_encoding.md R77) -/

theorem decode_of_canonical {p : Config} {w : DispatchWord} {op : Opcode} (v : Reading) (hc : Canonical p w)
    (hr : selectRow w = some op) : decode p w v = .ok (instrOf op w v) :=
  decode_of_selectRow v ((canonicalError_eq_none_iff p w).2 hc) hr

/-- START.STOPPED is the first row of the opcode map. -/
theorem selectRow_of_startStopped_bits {w : DispatchWord} (h : w &&& 0x0038#16 = 0x0020#16) :
    selectRow w = some .startStopped := by
  simp [selectRow, opcodeRows, Row.fits, h]

/-- START.GO is the second row, and the first has its mask with another match. -/
theorem selectRow_of_startGo_bits {w : DispatchWord} (h : w &&& 0x0038#16 = 0x0000#16) :
    selectRow w = some .startGo := by
  simp [selectRow, opcodeRows, Row.fits, h]

end Sys2Proof

namespace Sys2Proof.Machine

/-! ## What START.STOPPED does (spec/40_framing_events.md R91) -/

theorem exec_startStopped (st : ProtocolState) (s : State) :
    exec (.startStopped st) s = .next { s with st := .wfs, mode := .idle, clk := false, label := ⟨false, .stop⟩ } :=
  (exec_of_rearms rfl s).trans (if_pos (enabled_start s))

/-- From WaitingForStart with the bus released START.STOPPED writes back what the block holds (R91). -/
theorem sameBlock_of_exec_startStopped {st : ProtocolState} {s t : State} (hst : s.st = .wfs) (hmode : s.mode = .idle)
    (hclk : s.clk = false) (h : exec (.startStopped st) s = .next t) : SameBlock s t := by
  rw [exec_startStopped] at h
  cases h
  exact ⟨rfl, hst.symm, rfl, rfl, rfl, hmode.symm, hclk.symm, rfl, rfl, rfl⟩

/-! ## The obligations -/

/-- Settles O39: a START's word carries no payload, so in every state, reserved ones included, it encodes START.GO, which
is enabled in every state. -/
theorem startIsServicedInEveryState : Obligations.StartIsServicedInEveryState := by
  unfold Obligations.StartIsServicedInEveryState
  intro s rest hb
  exact step_start hb

/-- Settles O14: the word's bits select START.GO's row, and START.GO is a rearming that is always enabled. -/
theorem startGoArmsTheAddressByte : Obligations.StartGoArmsTheAddressByte := by
  unfold Obligations.StartGoArmsTheAddressByte
  refine ⟨?_, exec_startGo⟩
  intro p w v hc hbits
  exact decode_of_canonical v hc (selectRow_of_startGo_bits hbits)

/-- Settles O15: the word's bits select START.STOPPED's row, and START.STOPPED is a rearming that is always enabled. -/
theorem startStoppedReleasesTheBus : Obligations.StartStoppedReleasesTheBus := by
  unfold Obligations.StartStoppedReleasesTheBus
  refine ⟨?_, exec_startStopped, fun st s t => sameBlock_of_exec_startStopped⟩
  intro p w v hc hbits
  exact decode_of_canonical v hc (selectRow_of_startStopped_bits hbits)

end Sys2Proof.Machine

/-! Proofs of the statements of spec/41_overflow_events.md, O16 to O22, O40, O41, O43 and O44. A row is selected by the
words that fit it when no row before it shares a word with it; what an overflow does rests on `exec_of_rearms`, on
`transition_of_exec` for the stall, and on the instruction each event stands for. -/

namespace Sys2Proof

/-! ## The words of a row (spec/30_encoding.md R77) -/

/-- Whether some word fits both rows: their matches agree where both masks look. -/
def Row.overlaps (q r : Row) : Bool := (q.pattern &&& r.mask) == (r.pattern &&& q.mask)

theorem Row.fits_iff (r : Row) (w : DispatchWord) : r.fits w = true ↔ w &&& r.mask = r.pattern := beq_iff_eq

theorem Row.overlaps_of_fits {q r : Row} {w : DispatchWord} (hq : q.fits w = true) (hr : r.fits w = true) :
    q.overlaps r = true := by
  rw [Row.fits_iff] at hq hr
  rw [Row.overlaps, beq_iff_eq, ← hq, ← hr, BitVec.and_assoc, BitVec.and_assoc, BitVec.and_comm r.mask]

theorem eq_of_mem_opcodeRows_of_name_eq :
    ∀ q ∈ opcodeRows, ∀ r ∈ opcodeRows, q.name = r.name → q = r := by decide

/-- A row that overlaps no row before it is selected by exactly the words that fit it. -/
theorem selectRow_iff_of_first {r : Row} (before after : List Row) (hrows : opcodeRows = before ++ r :: after)
    (hfirst : ∀ q ∈ before, q.overlaps r = false) (w : DispatchWord) :
    selectRow w = some r.name ↔ w &&& r.mask = r.pattern := by
  rw [← Row.fits_iff, selectRow, Option.map_eq_some_iff]
  constructor
  · rintro ⟨q, hq, hname⟩
    have hmem : r ∈ opcodeRows := by simp [hrows]
    obtain rfl := eq_of_mem_opcodeRows_of_name_eq q (List.mem_of_find?_eq_some hq) r hmem hname
    exact List.find?_some (p := fun r : Row => r.fits w) hq
  · intro hr
    refine ⟨r, List.find?_eq_some_iff_append.2 ⟨hr, before, after, hrows, fun q hq => ?_⟩, rfl⟩
    cases hfits : q.fits w with
    | false => rfl
    | true => exact absurd (Row.overlaps_of_fits hfits hr) (by simp [hfirst q hq])

theorem selectRow_ovfRaMatch_iff (w : DispatchWord) :
    selectRow w = some .ovfRaMatch ↔ w &&& 0x007F#16 = 0x0049#16 :=
  selectRow_iff_of_first (opcodeRows.take 3) (opcodeRows.drop 4) rfl (by decide) w

theorem selectRow_ovfSb_iff (w : DispatchWord) : selectRow w = some .ovfSb ↔ w &&& 0x003F#16 = 0x000B#16 :=
  selectRow_iff_of_first (opcodeRows.take 6) (opcodeRows.drop 7) rfl (by decide) w

theorem selectRow_ovfRabAck_iff (w : DispatchWord) : selectRow w = some .ovfRabAck ↔ w &&& 0x007F#16 = 0x000C#16 :=
  selectRow_iff_of_first (opcodeRows.take 7) (opcodeRows.drop 8) rfl (by decide) w

/-- A canonical word of OVF.RA.MATCH's row carries `ADDR_MATCH_BYTE` (R75, R80). -/
theorem decode_ovfRaMatch_of_bits {p : Config} {w : DispatchWord} (v : Reading) (hc : Canonical p w)
    (hbits : w &&& 0x007F#16 = 0x0049#16) :
    dwData w = p.addrMatchByte ∧ decode p w v = .ok (.ovfRaMatch p.addrMatchByte) := by
  have hd : decode p w v = .ok (.ovfRaMatch (dwData w)) := decode_of_canonical v hc ((selectRow_ovfRaMatch_iff w).2 hbits)
  obtain ⟨hwf, -, -⟩ := encode_of_decode hd
  have hdata : dwData w = p.addrMatchByte := by simpa [Instr.wellFormed] using hwf
  exact ⟨hdata, hdata ▸ hd⟩

end Sys2Proof

namespace Sys2Proof.Machine

/-! ## What an overflow does (spec/41_overflow_events.md R92 to R100) -/

/-- While the clock is free an overflow's rearming row completes (R92). -/
theorem exec_ovf_of_rearms {i : Instr} {s : State} {x : ProtocolState} {m : XcvrMode} {r : Recovery}
    (hrow : rearms i = some (x, m, r)) (hkind : i.kind = .ovf) (hclk : s.clk = false) :
    exec i s = .next { s with st := x, mode := m, clk := false, label := ⟨false, r⟩ } := by
  have he : enabled i.kind s = true := by simp [hkind, hclk]
  rw [exec_of_rearms hrow, if_pos he]

/-- While the clock is held no overflow has a step, whatever its row (R92, R121). -/
theorem exec_ovf_of_clock_held {i : Instr} {s : State} (hkind : i.kind = .ovf) (hclk : s.clk = true) :
    exec i s = .refused (.eventNotEnabled .ovf) := by
  have he : enabled .ovf s = false := by simp [hclk]
  cases hrow : rearms i with
  | some y => rw [exec_of_rearms hrow, hkind, he, if_neg Bool.false_ne_true]
  | none =>
    obtain rfl | rfl | ⟨v, rfl⟩ | ⟨st, v, rfl⟩ := instr_of_rearms_none hrow
    · rw [exec, execOvfSaa, takeEvent_of_not_enabled _ he]
    · rw [exec, execOvfRabAck, takeEvent_of_not_enabled _ he]
    · cases hkind
    · cases hkind

/-- An overflow's meaning is its row's: it does not read the operands, so any word's in their place do the same (R102). -/
theorem exec_instrOf_opcode {i : Instr} (hkind : i.kind = .ovf) (w : DispatchWord) (v : Reading) (s : State) :
    exec (instrOf i.opcode w v) s = exec i s := by
  cases i <;> cases hkind <;> rfl

theorem exec_eq_of_opcode_eq {i j : Instr} (hi : i.kind = .ovf) (hj : j.kind = .ovf) (h : i.opcode = j.opcode)
    (s : State) : exec i s = exec j s := by
  rw [← exec_instrOf_opcode hi 0 0, h, exec_instrOf_opcode hj]

/-! ## The master's ACK (spec/41_overflow_events.md R98) -/

theorem sendCursorByte_of_error {s : State} {r : Fault} (h : byteAt s s.cur.val = .error r) :
    sendCursorByte s = .fault r := by
  simp only [sendCursorByte, h]

/-- Past byte 0 a master's ACK arms zero padding. -/
theorem exec_ovfRabAck_of_cursor_pos {s : State} (h : s.clk = false) (hcur : 1 ≤ s.cur.val) :
    exec .ovfRabAck s = .next
      { s with st := .sb, cur := 2, tx := some 0, mode := .txByte, clk := false, label := Label.quiet } := by
  have hnext : (advanceCursor s).cur = 2 := Fin.ext (by rw [advanceCursor_cur_val]; exact min_eq_right (by omega))
  have hb : byteAt s (advanceCursor s).cur.val = .ok 0 := byteAt_of_ge s (by rw [hnext]; decide)
  rw [exec_ovfRabAck_of_byteAt h hb, hnext]

/-- After byte 0 with the low byte unwritten a master's ACK faults (R19). -/
theorem exec_ovfRabAck_of_unwritten {s : State} (h : s.clk = false) (hcur : s.cur.val = 0) (hlo : s.rb.lo = none) :
    exec .ovfRabAck s = .fault .unwrittenResult := by
  have hnext : (advanceCursor s).cur.val = 1 := by simp [hcur]
  have hb : byteAt s (advanceCursor s).cur.val = .error .unwrittenResult := by
    rw [hnext]
    exact byteAt_of_unwritten (by decide) hlo
  rw [exec, execOvfRabAck, takeEvent_ovf_of_clock_free _ h]
  exact sendCursorByte_of_error hb

/-! ## Steps on an overflow -/

/-- The instruction an event stands for has the event's kind (R69). -/
theorem EncodesEvent.kind {s : State} {e : Event} {i : Instr} (h : EncodesEvent s e i) : i.kind = e.kind := by
  have hi : dwKind (dispatchWord s e) = some i.kind := h.word ▸ kind_of_decode (decode_encode h.wellFormed)
  exact Option.some.inj (hi.symm.trans (dwKind_dispatchWord s e))

theorem kind_selectedInstr {s : State} (h : ModeFollowsState s) (e : Event) : (selectedInstr s e).kind = e.kind :=
  (encodesEvent_selectedInstr h e).kind

/-- An address byte that does not match leaves the transaction (R95). -/
theorem step_foreignAddress {s : State} {rx : Byte} {rest : List Input} (hinv : ModeFollowsState s)
    (hst : s.st = .ra) (hclk : s.clk = false) (hrx : rx ≠ s.cfg.addrMatchByte)
    (hb : s.inbox = .event (.ovf false rx) :: rest) :
    step s = .next
      { s with st := .wfs, mode := .idle, clk := false, label := ⟨false, .addrMismatch⟩, inbox := rest } := by
  have hi : selectedInstr s (.ovf false rx) = .ovfRaNomatch rx := by simp only [selectedInstr, hst, if_neg hrx]
  rw [step_event hinv hb, hi]
  exact exec_ovfRaNomatch rx hclk

/-- A unit counted while idle leaves the block as it is (R100, D14). -/
theorem step_idleUnit {s : State} {rx : Byte} {rest : List Input} (hst : s.st = .wfs) (hmode : s.mode = .idle)
    (hclk : s.clk = false) (hb : s.inbox = .event (.ovf false rx) :: rest) :
    step s = .next { s with label := ⟨false, .defensive⟩, inbox := rest } := by
  have hinv : ModeFollowsState s := by rw [ModeFollowsState, hst, hmode, armOf]
  have hi : selectedInstr s (.ovf false rx) = .ovfDefault .wfs := by simp only [selectedInstr, hst]
  rw [step_event hinv hb, hi, exec_ovf_of_rearms (s := { s with inbox := rest }) rfl rfl hclk]
  simp only [hst, hmode, hclk]

/-- However many units are counted while idle, nothing of the block changes and no conversion starts. -/
theorem runsTo_idleUnits {rest : List Input} (units : List Byte) : ∀ {s : State}, s.st = .wfs → s.mode = .idle →
    s.clk = false → s.inbox = offer (units.map (Event.ovf false)) ++ rest →
    ∃ l, RunsTo units.length s { s with label := l, inbox := rest } 0 [] := by
  induction units with
  | nil =>
    rintro s - - - rfl
    exact ⟨s.label, runsTo_zero s⟩
  | cons rx units ih =>
    intro s hst hmode hclk hb
    have hunit := runsTo_of_quiet_step (step_idleUnit hst hmode hclk hb) rfl (by simp [hst])
    obtain ⟨l, hunits⟩ := ih (s := { s with label := ⟨false, .defensive⟩, inbox := _ }) hst hmode hclk rfl
    rw [List.length_cons, Nat.add_comm]
    exact ⟨l, hunit.trans hunits⟩

/-- With the clock held, an instruction that completes and is no stray completion is a START or a completion, and frees
the clock (R101). -/
theorem clock_freed_of_transition {i : Instr} {s t : State} (hclk : s.clk = true) (hstray : i.opcode ≠ .adcDoneStray)
    (h : Transition s i t) : t.clk = false ∧ (i.kind = .start ∨ i.kind = .adc) := by
  cases h with
  | rearm hrow he =>
    obtain ⟨-, hadc, -⟩ := rearms_spec hrow
    exact ⟨rfl, .inl ((start_or_clock_free hadc he).resolve_right (by simp [hclk]))⟩
  | startConversion hfree => simp [hclk] at hfree
  | sendNextByte hfree hb => simp [hclk] at hfree
  | sendResult hrow he hv =>
    obtain rfl | ⟨st, rfl, -⟩ := hrow
    · exact ⟨rfl, .inr rfl⟩
    · exact absurd rfl hstray
  | captureOnly hg he hv => exact absurd rfl hstray

/-! ## The obligations -/

/-- Settles O40: a STOP selects OVF.STOP whatever the unit, and OVF.STOP is a rearming. -/
theorem stopOnAnyOverflowWins : Obligations.StopOnAnyOverflowWins := by
  unfold Obligations.StopOnAnyOverflowWins
  intro s rx rest hinv hclk hb
  rw [step_event hinv hb, selectedInstr]
  exact exec_ovf_of_rearms rfl rfl hclk

/-- Settles O41: no overflow is enabled in the stall, and by INV3 a completion there is none of the stray ones. -/
theorem stallEndsByCompletionOrStartOnly : Obligations.StallEndsByCompletionOrStartOnly := by
  unfold Obligations.StallEndsByCompletionOrStartOnly
  intro s hi hclk
  constructor
  · intro b rx rest hb
    rw [step_event hi.mode_follows_state hb]
    exact exec_ovf_of_clock_held (kind_selectedInstr hi.mode_follows_state _) hclk
  · intro x rest t hb h
    obtain ⟨y, rest', i, hb', hkind, -, hstray, ht⟩ := transition_of_step h
    obtain ⟨rfl, -⟩ : x = y ∧ rest = rest' := List.cons.inj (hb.symm.trans hb')
    obtain ⟨hsaa, -, -⟩ := hi.clock_held_only_in_stall hclk
    rw [hkind, Option.some_inj, Option.some_inj]
    exact clock_freed_of_transition (s := { s with inbox := rest' }) hclk (fun hop => hstray hop hsaa) ht

/-- Settles O43: each overflow runs the instruction it selects, and an overflow's instruction does what its row says. -/
theorem receivedUnitsAreNotStored : Obligations.ReceivedUnitsAreNotStored := by
  unfold Obligations.ReceivedUnitsAreNotStored
  intro s b x y rest hinv hop
  rw [step_event (s := { s with inbox := .event (.ovf b x) :: rest }) hinv rfl,
    step_event (s := { s with inbox := .event (.ovf b y) :: rest }) hinv rfl]
  exact exec_eq_of_opcode_eq (kind_selectedInstr hinv (.ovf b x)) (kind_selectedInstr hinv (.ovf b y)) hop _

/-- Settles O44: the foreign address byte makes the block idle, and the units after it leave it so. -/
theorem foreignTransactionIsIgnored : Obligations.ForeignTransactionIsIgnored := by
  unfold Obligations.ForeignTransactionIsIgnored
  intro s x units rest hinv hst hclk hx hb
  have haddr := runsTo_of_quiet_step (step_foreignAddress hinv hst hclk hx hb) rfl nofun
  obtain ⟨l, hunits⟩ := runsTo_idleUnits units
    (s := { s with st := .wfs, mode := .idle, clk := false, label := ⟨false, .addrMismatch⟩, inbox := _ })
    rfl rfl rfl rfl
  obtain ⟨hrun, hstarted, -⟩ := haddr.trans hunits
  rw [Nat.add_comm]
  refine ⟨_, hrun, ?_, rfl, sdaOut_of_released_mode (.inl rfl), hstarted⟩
  exact ⟨rfl, rfl, rfl, rfl, rfl, rfl, rfl, rfl, rfl, rfl⟩

/-- Settles O16: the four rows are rearmings to WaitingForStart with the bus released. -/
theorem fallbackOverflowsReturnToIdle : Obligations.FallbackOverflowsReturnToIdle := by
  unfold Obligations.FallbackOverflowsReturnToIdle
  intro s h
  exact ⟨fun _ _ => exec_ovf_of_rearms rfl rfl h, fun rx => exec_ovfRaNomatch rx h, exec_ovfRabNack h,
    fun _ => exec_ovf_of_rearms rfl rfl h⟩

/-- Settles O17: a canonical word of the row decodes to a well-formed OVF.RA.MATCH, which arms the ACK bit. -/
theorem addressMatchArmsTheAckBit : Obligations.AddressMatchArmsTheAckBit := by
  unfold Obligations.AddressMatchArmsTheAckBit
  exact ⟨fun p w v hc hbits => decode_ovfRaMatch_of_bits v hc hbits,
    fun rx s h => ⟨exec_ovfRaMatch rx h, sdaOut_of_txAck rfl rfl⟩⟩

/-- Settles O18: OVF.SAA's whole next state, in which the held clock releases the line. -/
theorem ackBitEndHoldsClockAndStartsConversion : Obligations.AckBitEndHoldsClockAndStartsConversion := by
  unfold Obligations.AckBitEndHoldsClockAndStartsConversion
  intro s h
  exact ⟨exec_ovfSaa h, sdaOut_of_clock_held rfl⟩

/-- Settles O19: the word's bits select OVF.SB's row, and OVF.SB is a rearming. -/
theorem sentByteArmsTheAnswerBit : Obligations.SentByteArmsTheAnswerBit := by
  unfold Obligations.SentByteArmsTheAnswerBit
  exact ⟨fun p w v hc hbits => decode_of_canonical v hc ((selectRow_ovfSb_iff w).2 hbits), fun s => exec_ovfSb⟩

/-- Settles O20: no row before OVF.SB shares a word with it; its next state is in RX_ACK, where the line is released. -/
theorem sentByteRowAndWrites : Obligations.SentByteRowAndWrites := by
  unfold Obligations.SentByteRowAndWrites
  exact ⟨selectRow_ovfSb_iff, fun s h =>
    ⟨_, exec_ovfSb h, rfl, rfl, sdaOut_of_released_mode (.inr (.inr rfl)), rfl, rfl⟩⟩

/-- Settles O21: by whether the cursor is at byte 0, and there by whether the low byte is written. -/
theorem masterAckArmsTheNextByte : Obligations.MasterAckArmsTheNextByte := by
  unfold Obligations.MasterAckArmsTheNextByte
  refine ⟨fun p w v hc hbits => decode_of_canonical v hc ((selectRow_ovfRabAck_iff w).2 hbits), fun s h => ?_⟩
  exact ⟨fun b => exec_ovfRabAck_of_cursor_zero h, exec_ovfRabAck_of_cursor_pos h, exec_ovfRabAck_of_unwritten h⟩

/-- Settles O22: no row before OVF.RAB.ACK shares a word with it; from cursor 0 it arms `rb[1]`, from 1 and 2 padding. -/
theorem masterAckRowAndWrites : Obligations.MasterAckRowAndWrites := by
  unfold Obligations.MasterAckRowAndWrites
  refine ⟨selectRow_ovfRabAck_iff, fun s b h _ hlo => ?_⟩
  by_cases hcur : s.cur.val = 0
  · exact ⟨_, exec_ovfRabAck_of_cursor_zero h hcur hlo, by simp [hcur], hlo.symm, rfl, rfl, rfl⟩
  · have hmin : min (s.cur.val + 1) 2 = 2 := by omega
    exact ⟨_, exec_ovfRabAck_of_cursor_pos h (by omega), hmin.symm, rfl, rfl, rfl, rfl⟩

end Sys2Proof.Machine

/-! Proofs of the statements of spec/42_adc_events.md, O23, O24, O27 and O42: what a completion does with a legal reading
is its whole next state, and a reading that is no legal draw stops both completions before their handlers. -/

namespace Sys2Proof.Machine

/-- A reading that is no legal draw has no step, whatever the handler (R104). -/
theorem takeCompletion_of_illegal {v : Reading} {s : State} (handler : State → Answer)
    (hv : 2 ^ s.cfg.adcBits ≤ v.toNat) : takeCompletion v s handler = .refused .illegalDraw := by
  have hdraw : legalDraw s.cfg v = false := decide_eq_false (Nat.not_lt.2 hv)
  rw [takeCompletion, hdraw, if_neg Bool.false_ne_true]

/-- In the stall a read's conversion is in flight in LIGHT: its completion is enabled (INV2, INV3). -/
theorem conversion_of_clock_held {s : State} (hi : Inv s) (hclk : s.clk = true) :
    s.st = .saa ∧ s.busy = true ∧ s.slp = .light := by
  obtain ⟨hst, -, hbusy⟩ := hi.clock_held_only_in_stall hclk
  obtain ⟨-, hlight⟩ := hi.power_follows_conversion
  exact ⟨hst, hbusy, hlight.1 hbusy⟩

/-! ## The obligations -/

/-- Settles O42: INV2 and INV3 enable the completion of the read, whose next state has the clock free and the high byte
armed. -/
theorem completionEndsTheStall : Obligations.CompletionEndsTheStall := by
  unfold Obligations.CompletionEndsTheStall
  intro s v rest hi hclk hv hb
  obtain ⟨hst, he⟩ := conversion_of_clock_held hi hclk
  exact ⟨_, step_completion hst he hv hb, rfl, rfl, rfl, rfl, sdaOut_of_txByte rfl rfl rfl, rfl, rfl, rfl⟩

/-- Settles O23: the whole next state of the completion of a read. -/
theorem completionCapturesAndArmsTheHighByte : Obligations.CompletionCapturesAndArmsTheHighByte := by
  unfold Obligations.CompletionCapturesAndArmsTheHighByte
  intro v s hbusy hslp hv
  exact exec_adcDoneSaa ⟨hbusy, hslp⟩ hv

/-- Settles O24: unguarded a stray completion is that of a read; guarded it ends after the capture. -/
theorem strayCompletionClosesThePowerBracket : Obligations.StrayCompletionClosesThePowerBracket := by
  unfold Obligations.StrayCompletionClosesThePowerBracket
  intro st v s hbusy hslp hv
  have he : s.busy = true ∧ s.slp = .light := ⟨hbusy, hslp⟩
  exact ⟨fun hg => (exec_adcDoneStray_of_unguarded st hg he hv).trans (exec_adcDoneSaa he hv),
    fun hg => exec_adcDoneStray_of_guarded st hg he hv⟩

/-- Settles O27: both completions look at the reading before anything else. -/
theorem readingAboveResolutionHasNoStep : Obligations.ReadingAboveResolutionHasNoStep := by
  unfold Obligations.ReadingAboveResolutionHasNoStep
  intro st v s hv
  exact ⟨takeCompletion_of_illegal _ hv, takeCompletion_of_illegal _ hv⟩

end Sys2Proof.Machine

/-! Proofs of the statements of spec/43_power_idle.md, O9 and O10: nothing runs until something is offered, and every
transition of `Transition` comes from an instruction whose event was enabled. -/

namespace Sys2Proof.Machine

/-! ## Sleep and wake (spec/43_power_idle.md R112, spec/60_exceptions.md R121) -/

/-- What is offered enables nothing: R121 reads `slp`, `clk` and `busy` only. -/
theorem enabled_with_inbox (k : EventKind) (s : State) (rest : List Input) :
    enabled k { s with inbox := rest } = enabled k s := by
  cases k <;> rfl

/-- Only an enabled event makes a transition (R121). -/
theorem enabled_of_transition {i : Instr} {s t : State} (h : Transition s i t) : enabled i.kind s = true := by
  cases h with
  | rearm hrow he => exact he
  | startConversion hclk => simp [Instr.kind, hclk]
  | sendNextByte hclk hb => simp [Instr.kind, hclk]
  | sendResult hrow he hv =>
    obtain rfl | ⟨st, rfl, -⟩ := hrow
    · exact (enabled_adc_iff s).2 he
    · exact (enabled_adc_iff s).2 he
  | captureOnly hg he hv => exact (enabled_adc_iff s).2 he

/-- A transition leaves what is still offered. -/
theorem inbox_of_transition {i : Instr} {s t : State} (h : Transition s i t) : t.inbox = s.inbox := by
  cases h <;> rfl

/-! ## The obligations -/

/-- Settles O10: the step makes a transition of an instruction that has its word's kind, on the state with the offer
taken. -/
theorem everyStepTakesAnEnabledEvent : Obligations.EveryStepTakesAnEnabledEvent := by
  unfold Obligations.EveryStepTakesAnEnabledEvent
  intro s t h
  obtain ⟨x, rest, i, hb, hkind, -, -, ht⟩ := transition_of_step h
  have hrest : t.inbox = rest := inbox_of_transition ht
  have he : enabled i.kind s = true := (enabled_with_inbox i.kind s rest).symm.trans (enabled_of_transition ht)
  exact ⟨x, i.kind, hrest ▸ hb, hkind, he⟩

/-- Settles O9: the step refuses an empty inbox before anything else, and sleeping writes nothing. -/
theorem sleepsWhileNothingIsOffered : Obligations.SleepsWhileNothingIsOffered := by
  unfold Obligations.SleepsWhileNothingIsOffered
  intro s
  exact ⟨step_of_nothing_offered, idleAction_eq s⟩

end Sys2Proof.Machine

/-! Proofs of the statements of spec/60_exceptions.md, O12, O26 and O36. A transition writes no parameter and leaves what is
still offered; a meaning is refused for not being enabled exactly where R121 says so; and a master in the transaction shape
offers only enabled events, each of which takes the block to the phase the shape names. -/

namespace Sys2Proof.Machine

/-! ## Parameters and offers along a step (spec/00_scope.md section 4, spec/60_exceptions.md R123) -/

/-- No transition writes the parameters. -/
theorem cfg_of_transition {i : Instr} {s t : State} (h : Transition s i t) : t.cfg = s.cfg := by
  cases h <;> rfl

/-- A step makes a transition, from the state with the first offer taken, so it takes that offer alone. -/
theorem cfg_and_inbox_of_step {s t : State} (h : step s = .next t) :
    t.cfg = s.cfg ∧ ∃ x : Input, s.inbox = x :: t.inbox := by
  obtain ⟨x, rest, i, hb, -, -, -, ht⟩ := transition_of_step h
  have hrest : t.inbox = rest := inbox_of_transition ht
  exact ⟨cfg_of_transition (s := { s with inbox := rest }) ht, x, hrest ▸ hb⟩

/-- Settles O12: the transition of the step writes neither the parameters nor what is still offered. -/
theorem stepKeepsParametersAndTakesOneOffer : Obligations.StepKeepsParametersAndTakesOneOffer := by
  unfold Obligations.StepKeepsParametersAndTakesOneOffer
  exact fun _ _ => cfg_and_inbox_of_step

/-! ## Refused for not being enabled (spec/60_exceptions.md R121) -/

theorem enabled_eq_false_iff (k : EventKind) (s : State) :
    enabled k s = false ↔ (k = .ovf ∧ s.clk = true) ∨ (k = .adc ∧ ¬ (s.busy = true ∧ s.slp = .light)) := by
  cases k with
  | start => simp
  | ovf => simp
  | adc => rw [← enabled_adc_iff]; simp

/-- A completion that is not enabled is refused before its handler, provided its reading is a legal draw (R104, R121). -/
theorem takeCompletion_of_not_enabled {v : Reading} {s : State} (handler : State → Answer)
    (hv : legalDraw s.cfg v = true) (he : enabled .adc s = false) :
    takeCompletion v s handler = .refused (.eventNotEnabled .adc) := by
  rw [takeCompletion, if_pos hv, takeEvent_of_not_enabled handler he]

/-- An instruction that is not enabled has no step (R121). -/
theorem exec_of_not_enabled {i : Instr} {s : State} (hv : legalDraw s.cfg i.reading = true)
    (he : enabled i.kind s = false) : exec i s = .refused (.eventNotEnabled i.kind) := by
  cases hkind : i.kind with
  | start => simp [hkind] at he
  | ovf => exact exec_ovf_of_clock_held hkind (by simpa [hkind] using he)
  | adc =>
    rw [hkind] at he
    cases i <;> cases hkind
    · exact takeCompletion_of_not_enabled _ hv he
    · exact takeCompletion_of_not_enabled _ hv he

/-- A byte send arms the byte or faults on it (R19, R98). -/
theorem sendCursorByte_ne_refused (s : State) (r : Refusal) : sendCursorByte s ≠ .refused r := by
  cases hb : byteAt s s.cur.val with
  | ok b => simp [sendCursorByte_of_ok hb]
  | error f => simp [sendCursorByte_of_error hb]

/-- An enabled instruction with a legal reading completes or faults: it is not refused (R121). -/
theorem exec_ne_refused_of_enabled {i : Instr} {s : State} (hv : legalDraw s.cfg i.reading = true)
    (he : enabled i.kind s = true) (r : Refusal) : exec i s ≠ .refused r := by
  by_cases hi : i = .ovfRabAck
  · subst hi
    have hclk : s.clk = false := by simpa [Instr.kind] using he
    rw [exec, execOvfRabAck, takeEvent_ovf_of_clock_free _ hclk]
    exact sendCursorByte_ne_refused _ r
  · obtain ⟨t, ht⟩ := exec_completes he hv fun h => absurd h hi
    simp [ht]

/-- Settles O26: with a legal reading the refusal says that the event is not enabled, and R121 says when that is. -/
theorem eventHasNoStepExactlyWhenNotEnabled : Obligations.EventHasNoStepExactlyWhenNotEnabled := by
  unfold Obligations.EventHasNoStepExactlyWhenNotEnabled
  intro i s hv
  have hdraw : legalDraw s.cfg i.reading = true := decide_eq_true hv
  rw [← enabled_eq_false_iff]
  constructor
  · intro h
    exact Bool.eq_false_iff.2 fun he => exec_ne_refused_of_enabled hdraw he _ h
  · exact exec_of_not_enabled hdraw

/-! ## The transaction shape, move by move (spec/60_exceptions.md R131) -/

theorem followsShape_cons_iff (p : Config) (ph : BusPhase) (m : BusMove) (moves : List BusMove) :
    followsShape p ph (m :: moves) = true ↔
      ∃ q, nextPhase p ph m = some q ∧ followsShape p q moves = true := by
  cases h : nextPhase p ph m <;> simp [followsShape, h]

theorem nextPhase_stop_iff (p : Config) (ph q : BusPhase) :
    nextPhase p ph .stop = some q ↔ ph ≠ .stretch ∧ ph = q := by
  simp [nextPhase]

theorem nextPhase_start_iff (p : Config) (ph q : BusPhase) (sf : Bool) :
    nextPhase p ph (.event (.start sf)) = some q ↔ ph ≠ .stretch ∧ (if sf then .idle else .address) = q := by
  simp [nextPhase]

theorem nextPhase_ovf_iff (p : Config) (ph q : BusPhase) (b : Bool) (rx : Byte) :
    nextPhase p ph (.event (.ovf b rx)) = some q ↔
      ph ≠ .stretch ∧ (if b then .idle else afterUnit p rx ph) = q := by
  simp [nextPhase]

theorem nextPhase_adc_iff (p : Config) (ph q : BusPhase) (v : Reading) :
    nextPhase p ph (.event (.adc v)) = some q ↔ (ph = .stretch ∧ legalDraw p v = true) ∧ .byte = q := by
  simp [nextPhase]

theorem busPhase_eq_stretch_iff (s : State) : busPhase s = .stretch ↔ s.st = .saa ∧ s.clk = true := by
  cases hst : s.st <;> simp [busPhase, hst]

/-- Under INV3 the clock is held in no phase but the stretch. -/
theorem clock_free_of_busPhase {s : State} (hi : Inv s) (h : busPhase s ≠ .stretch) : s.clk = false :=
  Bool.eq_false_iff.2 fun hclk =>
    h ((busPhase_eq_stretch_iff s).2 ⟨(hi.clock_held_only_in_stall hclk).1, hclk⟩)

/-- The shape admits only enabled events with legal readings, and a START only while the clock is free. -/
theorem ready_of_nextPhase {s : State} {e : Event} {q : BusPhase} (hi : Inv s)
    (h : nextPhase s.cfg (busPhase s) (.event e) = some q) :
    enabled e.kind s = true ∧ legalDraw s.cfg e.reading = true ∧ (e.kind = .start → s.clk = false) := by
  have hzero : legalDraw s.cfg 0 = true := decide_eq_true (Nat.two_pow_pos _)
  cases e with
  | start sf =>
    obtain ⟨hph, -⟩ := (nextPhase_start_iff ..).1 h
    exact ⟨enabled_start s, hzero, fun _ => clock_free_of_busPhase hi hph⟩
  | ovf b rx =>
    obtain ⟨hph, -⟩ := (nextPhase_ovf_iff ..).1 h
    exact ⟨by simp [Event.kind, clock_free_of_busPhase hi hph], hzero, nofun⟩
  | adc v =>
    obtain ⟨⟨hph, hv⟩, -⟩ := (nextPhase_adc_iff ..).1 h
    obtain ⟨-, hclk⟩ := (busPhase_eq_stretch_iff s).1 hph
    obtain ⟨-, he⟩ := conversion_of_clock_held hi hclk
    exact ⟨(enabled_adc_iff s).2 he, hv, nofun⟩

/-! ## The phase an instruction leads to -/

/-- The phase of the bus after an instruction; none for a stray completion, whose state depends on `ADC_DONE_GUARDED`. -/
def phaseAfter : Instr → Option BusPhase
  | .startStopped _ => some .idle
  | .startGo _ => some .address
  | .ovfStop _ _ => some .idle
  | .ovfRaMatch _ => some .ackBit
  | .ovfRaNomatch _ => some .idle
  | .ovfSaa => some .stretch
  | .ovfSb => some .answer
  | .ovfRabAck => some .byte
  | .ovfRabNack => some .idle
  | .ovfDefault _ => some .idle
  | .adcDoneSaa _ => some .byte
  | .adcDoneStray _ _ => none

/-- A rearming row leads to the phase of the state it goes to, with the clock free. -/
theorem busPhase_of_rearms {i : Instr} {s : State} {x : ProtocolState} {m : XcvrMode} {r : Recovery} {q : BusPhase}
    (hrow : rearms i = some (x, m, r)) (hq : phaseAfter i = some q) (hst : s.st = x) (hclk : s.clk = false) :
    busPhase s = q := by
  cases i <;> cases hrow <;> cases hq <;> simp [busPhase, hst, hclk]

/-- A transition of an instruction of the machine's state leads to the instruction's phase. -/
theorem busPhase_of_transition {i : Instr} {s t : State} {q : BusPhase} (hst : i.state = s.st)
    (hq : phaseAfter i = some q) (h : Transition s i t) : busPhase t = q := by
  cases h with
  | rearm hrow he => exact busPhase_of_rearms hrow hq rfl rfl
  | startConversion hclk =>
    cases hq
    exact (busPhase_eq_stretch_iff _).2 ⟨hst.symm, rfl⟩
  | sendNextByte hclk hb =>
    cases hq
    rfl
  | sendResult hrow he hv =>
    obtain rfl | ⟨st, rfl, -⟩ := hrow <;> cases hq
    rfl
  | captureOnly hg he hv => cases hq

/-- A unit without a STOP selects the instruction that leads to the shape's next phase (R131 (c)). -/
theorem phaseAfter_selectedInstr_unit {s : State} (rx : Byte) (h : busPhase s ≠ .stretch) :
    phaseAfter (selectedInstr s (.ovf false rx)) = some (afterUnit s.cfg rx (busPhase s)) := by
  cases hst : s.st with
  | ra =>
    simp only [selectedInstr, busPhase, afterUnit, hst]
    split <;> rfl
  | saa =>
    have hclk : s.clk = false := Bool.eq_false_iff.2 fun hc => h ((busPhase_eq_stretch_iff s).2 ⟨hst, hc⟩)
    simp [selectedInstr, busPhase, hst, hclk, phaseAfter, afterUnit]
  | rab =>
    simp only [selectedInstr, busPhase, afterUnit, hst]
    split <;> rfl
  | _ => simp only [selectedInstr, busPhase, afterUnit, hst, phaseAfter]

/-- The instruction that an event of the shape selects leads to the shape's next phase (R131 (c)). -/
theorem phaseAfter_selectedInstr {s : State} {e : Event} {q : BusPhase}
    (h : nextPhase s.cfg (busPhase s) (.event e) = some q) : phaseAfter (selectedInstr s e) = some q := by
  cases e with
  | start sf =>
    obtain ⟨-, rfl⟩ := (nextPhase_start_iff ..).1 h
    cases sf <;> rfl
  | ovf b rx =>
    obtain ⟨hph, rfl⟩ := (nextPhase_ovf_iff ..).1 h
    cases b with
    | true => rfl
    | false => exact phaseAfter_selectedInstr_unit rx hph
  | adc v =>
    obtain ⟨⟨hph, -⟩, rfl⟩ := (nextPhase_adc_iff ..).1 h
    obtain ⟨hst, -⟩ := (busPhase_eq_stretch_iff s).1 hph
    rw [selectedInstr, if_pos hst, phaseAfter]

/-! ## A master in the shape is served -/

theorem noStartDuringStall_of_event {s : State} {e : Event} {rest : List Input} (hb : s.inbox = .event e :: rest)
    (h : e.kind = .start → s.clk = false) : NoStartDuringStall s := by
  intro hoffers
  have hkind : dwKind (dispatchWord s e) = some .start := (offersStart_iff hb).1 hoffers
  exact h (Option.some.inj ((dwKind_dispatchWord s e).symm.trans hkind))

/-- An event of the shape has its step, which leads to the shape's next phase. -/
theorem step_of_nextPhase {s : State} {e : Event} {rest : List Input} {q : BusPhase} (hi : Inv s)
    (hb : s.inbox = .event e :: rest) (h : nextPhase s.cfg (busPhase s) (.event e) = some q) :
    ∃ t, step s = .next t ∧ busPhase t = q := by
  have henc := encodesEvent_selectedInstr hi.mode_follows_state e
  obtain ⟨he, hv, -⟩ := ready_of_nextPhase hi h
  have hlo : selectedInstr s e = .ovfRabAck → s.rb.lo ≠ none := by
    intro hrow
    have hrab : s.st = .rab := henc.state.symm.trans (congrArg Instr.state hrow)
    exact (hi.bytes_written.1 (.inr hrab)).2
  rw [← henc.kind, ← enabled_with_inbox _ s rest] at he
  rw [← henc.reading] at hv
  obtain ⟨t, ht⟩ := exec_completes (s := { s with inbox := rest }) he hv hlo
  exact ⟨t, (step_of_encodesEvent henc hb).trans ht,
    busPhase_of_transition (s := { s with inbox := rest }) henc.state (phaseAfter_selectedInstr h) (transition_of_exec ht)⟩

/-- The first `n` offers of `s` are served: each has its step, `rest` is offered and the six invariants hold at the end,
and no START is offered in a stall on the way. -/
structure Served (n : Nat) (rest : List Input) (s : State) : Prop where
  run : ∃ t, runSteps n s = .next t ∧ t.inbox = rest ∧ Inv t ∧ ConversionOnlyInStall t
  no_start_during_stall : ∀ k u, k < n → runSteps k s = .next u → NoStartDuringStall u

theorem served_zero {s : State} (hi : Inv s) (hs : ConversionOnlyInStall s) : Served 0 s.inbox s where
  run := ⟨s, rfl, rfl, hi, hs⟩
  no_start_during_stall := fun k _ hk => absurd hk (Nat.not_lt_zero k)

theorem Served.of_step {n : Nat} {rest : List Input} {s t : State} (hstep : step s = .next t)
    (hno : NoStartDuringStall s) (h : Served n rest t) : Served (n + 1) rest s where
  run := by
    rw [runSteps_of_next hstep]
    exact h.run
  no_start_during_stall := by
    intro k u hk hu
    cases k with
    | zero =>
      cases hu
      exact hno
    | succ k =>
      rw [runSteps_of_next hstep] at hu
      exact h.no_start_during_stall k u (Nat.lt_of_succ_lt_succ hk) hu

/-- By the moves: a STOP is no offer, and an event's step leads to the phase that the moves after it are admitted in. -/
theorem served_of_followsShape {rest : List Input} (moves : List BusMove) : ∀ {s : State}, Inv s →
    ConversionOnlyInStall s → s.inbox = offer (seenEvents moves) ++ rest →
    followsShape s.cfg (busPhase s) moves = true → Served (seenEvents moves).length rest s := by
  induction moves with
  | nil =>
    rintro s hi hs hb -
    obtain rfl : s.inbox = rest := hb
    exact served_zero hi hs
  | cons m moves ih =>
    intro s hi hs hb hshape
    obtain ⟨q, hq, hshape⟩ := (followsShape_cons_iff ..).1 hshape
    cases m with
    | stop =>
      obtain ⟨-, rfl⟩ := (nextPhase_stop_iff ..).1 hq
      exact ih hi hs hb hshape
    | event e =>
      obtain ⟨-, -, hstart⟩ := ready_of_nextPhase hi hq
      have hno : NoStartDuringStall s := noStartDuringStall_of_event hb hstart
      obtain ⟨t, ht, rfl⟩ := step_of_nextPhase hi hb hq
      obtain ⟨hcfg, x, hx⟩ := cfg_and_inbox_of_step ht
      have hrest : t.inbox = offer (seenEvents moves) ++ rest := (List.cons.inj (hx.symm.trans hb)).2
      have hserved := ih (inv_of_step hi ht) (conversionOnlyInStall_of_step hs hno ht) hrest (hcfg ▸ hshape)
      exact hserved.of_step ht hno

/-- Settles O36: the run of the offered events is served, move by move. -/
theorem transactionShapeIsServedToTheEnd : Obligations.TransactionShapeIsServedToTheEnd := by
  unfold Obligations.TransactionShapeIsServedToTheEnd
  intro moves s rest hi hs hb hshape
  obtain ⟨hrun, hno⟩ := served_of_followsShape moves hi hs hb hshape
  exact ⟨hrun, hno⟩

end Sys2Proof.Machine

/-! Proof of the statement of spec/70_reset_and_hazards.md, O31: the steps of the boot sequence write every field of the
block, so nothing of what the machine powered up with is left but its parameters and offers. -/

namespace Sys2Proof.Machine

/-- R138: the steps of the boot sequence write, between them, every field but the parameters and the offers. -/
theorem boot_eq_reset (s : State) : boot s = { State.reset with cfg := s.cfg, inbox := s.inbox } := rfl

/-- Settles O31: boot answers the reset state, whose fields are R49's values. -/
theorem bootSequenceReachesReset : Obligations.BootSequenceReachesReset := by
  unfold Obligations.BootSequenceReachesReset
  intro s
  rw [boot_eq_reset s]
  exact ⟨rfl, rfl, rfl, rfl, rfl, rfl, rfl, rfl, rfl, rfl⟩

end Sys2Proof.Machine
